-- ==== Sys2Proof/Word.lean ====
section
/-!
DEFINITION. The widths of 00_scope.md rule R10: nibble, byte, word and double word. Every value of the
engine is unsigned, so each is a plain bit vector.
-/

namespace Sys2Proof

/-- `u4`, a nibble (rule R10). -/
abbrev Nibble := BitVec 4

/-- `u8`, a byte (rule R10). -/
abbrev Byte := BitVec 8

/-- `u32`, the width `WORD` of every register, bus datum and cipher word (rules R8, R10). -/
abbrev Word := BitVec 32

/-- `u64`, a double word: the width of a carry-less product (rules R10, R120). -/
abbrev DWord := BitVec 64

end Sys2Proof
end

