-- ==== Sys2Proof/Syntax.lean ====
section
/-!
DEFINITION. The commands of TF128 as syntax: one constructor for each of the 18 rows of
spec/opcode_table.json (30_encoding.md rules R85, R90).
-/

namespace Sys2Proof

/-- A command. `RNDENC` and `RNDDEC` carry the round index `r` of the field RIDX (rule R81); no other
command has an operand in its word (rule R89). -/
inductive Instr where
  | nop
  | keysched
  | encrypt
  | decrypt
  | rndenc (r : Nat)
  | rnddec (r : Nat)
  | whitenIn
  | whitenOut
  | polymul
  | freduceMds
  | freduceRs
  | gfmulMds
  | gfmulRs
  | qpermQ0
  | qpermQ1
  | mdsmix
  | rsmix
  | gfunc
  deriving DecidableEq, Repr

end Sys2Proof
end

