-- ==== Sys2Proof/WellFormed.lean ====
section
/-!
DEFINITION. Which terms of `Instr` are commands (30_encoding.md rules R81, R89).
-/

namespace Sys2Proof

/-- A round index is in `0..15` (rule R81); no other command has a field. -/
def Instr.wellFormed : Instr → Bool
  | .rndenc r => r < 16
  | .rnddec r => r < 16
  | .nop => true
  | .keysched => true
  | .encrypt => true
  | .decrypt => true
  | .whitenIn => true
  | .whitenOut => true
  | .polymul => true
  | .freduceMds => true
  | .freduceRs => true
  | .gfmulMds => true
  | .gfmulRs => true
  | .qpermQ0 => true
  | .qpermQ1 => true
  | .mdsmix => true
  | .rsmix => true
  | .gfunc => true

end Sys2Proof
end

