-- ==== Sys2Proof/Decode.lean ====
section
/-!
DEFINITION. The command word (30_encoding.md rules R80 to R90): its fields, the decoder, and after it the
encoder. A command is one 32-bit number (rules R66, R88): how a platform lays it out in bytes is not
observable by the engine, so no byte order is decoded (log entry 12).
-/

namespace Sys2Proof

/-- `OPCODE = c[7:0]` (rule R80). -/
def opcodeOf (c : Word) : Byte := c.extractLsb' 0 8

/-- `RIDX = c[11:8]` (rule R80). -/
def ridxOf (c : Word) : Nibble := c.extractLsb' 8 4

/-- `SEL = c[12]` (rule R80). -/
def selOf (c : Word) : Bool := c.getLsbD 12

/-- `RSVD = c[31:13]` (rule R80). -/
def rsvdOf (c : Word) : BitVec 19 := c.extractLsb' 13 19

/-- Why a word is no command (rule R87). -/
inductive DecodeError where
  /-- OPCODE in `0x07..0x0F` or `0x17..0xFF`. -/
  | illegalOpcode
  /-- A legal OPCODE with a non-zero field that must be zero. -/
  | reservedField
  deriving DecidableEq, Repr

/-- A command that uses neither RIDX nor SEL: both and RSVD must be 0 (rules R81, R82, R84). -/
def decodePlain (c : Word) (i : Instr) : Except DecodeError Instr :=
  if rsvdOf c = 0 ∧ ridxOf c = 0 ∧ selOf c = false then .ok i else .error .reservedField

/-- A command that uses SEL: `i0` for SEL = 0, `i1` for SEL = 1 (rule R83). -/
def decodeSel (c : Word) (i0 i1 : Instr) : Except DecodeError Instr :=
  if rsvdOf c = 0 ∧ ridxOf c = 0 then .ok (if selOf c then i1 else i0) else .error .reservedField

/-- A command that uses RIDX (rule R81). -/
def decodeRound (c : Word) (i : Nat → Instr) : Except DecodeError Instr :=
  if rsvdOf c = 0 ∧ selOf c = false then .ok (i (ridxOf c).toNat) else .error .reservedField

/-- The decoder: rule R85's opcode map. Every word is a command or is rejected by name (rule R87). -/
def decode (c : Word) : Except DecodeError Instr :=
  if opcodeOf c = 0x00#8 then decodePlain c .nop
  else if opcodeOf c = 0x01#8 then decodePlain c .keysched
  else if opcodeOf c = 0x02#8 then decodePlain c .encrypt
  else if opcodeOf c = 0x03#8 then decodePlain c .decrypt
  else if opcodeOf c = 0x04#8 then decodeRound c .rndenc
  else if opcodeOf c = 0x05#8 then decodeRound c .rnddec
  else if opcodeOf c = 0x06#8 then decodeSel c .whitenIn .whitenOut
  else if opcodeOf c = 0x10#8 then decodePlain c .polymul
  else if opcodeOf c = 0x11#8 then decodeSel c .freduceMds .freduceRs
  else if opcodeOf c = 0x12#8 then decodeSel c .gfmulMds .gfmulRs
  else if opcodeOf c = 0x13#8 then decodeSel c .qpermQ0 .qpermQ1
  else if opcodeOf c = 0x14#8 then decodePlain c .mdsmix
  else if opcodeOf c = 0x15#8 then decodePlain c .rsmix
  else if opcodeOf c = 0x16#8 then decodePlain c .gfunc
  else .error .illegalOpcode

/-- The decoder on an opcode-table word of `nbits` bits: bits at and above `nbits` are 0, and a command is
one 32-bit word (rule R88). -/
def decodeTableWord (nbits w : Nat) : Option Instr :=
  let v := w % 2 ^ nbits
  if v < 2 ^ 32 then (decode (BitVec.ofNat 32 v)).toOption else none

/-- The command word of an instruction (rule R90's table). A round index outside the 4-bit field RIDX is
no command (`Instr.wellFormed`); the field keeps its low four bits (log entry 13). -/
def encode : Instr → Word
  | .nop => 0x00000000#32
  | .keysched => 0x00000001#32
  | .encrypt => 0x00000002#32
  | .decrypt => 0x00000003#32
  | .rndenc r => 0x00000004#32 ||| ((BitVec.ofNat 4 r).setWidth 32 <<< 8)
  | .rnddec r => 0x00000005#32 ||| ((BitVec.ofNat 4 r).setWidth 32 <<< 8)
  | .whitenIn => 0x00000006#32
  | .whitenOut => 0x00001006#32
  | .polymul => 0x00000010#32
  | .freduceMds => 0x00000011#32
  | .freduceRs => 0x00001011#32
  | .gfmulMds => 0x00000012#32
  | .gfmulRs => 0x00001012#32
  | .qpermQ0 => 0x00000013#32
  | .qpermQ1 => 0x00001013#32
  | .mdsmix => 0x00000014#32
  | .rsmix => 0x00000015#32
  | .gfunc => 0x00000016#32

/-- Whether a command needs `STATUS.KEYVALID = 1` (rule R85's column "key"). -/
def Instr.needsKey : Instr → Bool
  | .encrypt => true
  | .decrypt => true
  | .rndenc _ => true
  | .rnddec _ => true
  | .whitenIn => true
  | .whitenOut => true
  | .nop => false
  | .keysched => false
  | .polymul => false
  | .freduceMds => false
  | .freduceRs => false
  | .gfmulMds => false
  | .gfmulRs => false
  | .qpermQ0 => false
  | .qpermQ1 => false
  | .mdsmix => false
  | .rsmix => false
  | .gfunc => false

end Sys2Proof
end

