-- ==== Sys2Proof/Config.lean ====
section
/-!
DEFINITION. What an implementation fixes (00_scope.md rules R8, R9): the type of the table parameters with
the constraints the rules put on them, and the OPEN base address. The VALUES the spec assigns to TF128
stand in Machine/Constants.lean. The two other OPEN parameters of rule R8 are not constants here:
`LAT(op)` is the place of the engine's turns in `State.events` (log entry 2), and `MISALIGNED_ACCESS`
is the spec's own model default, a refusal (log entry 4).
-/

namespace Sys2Proof

/-- The bus address of register offset 0, `TF_BASE` (rules R8, R60): OPEN, so it has no body and nothing
can be proved of its value. Log entry 1 (DESIGN CHOICE): a bus address is a natural number. -/
opaque Config.tfBase : Nat

/-- One 16-entry nibble table `T[k]` of a Q network (rule R140). -/
abbrev QTable := Vector Nibble 16

/-- The four tables of one Q network, `Q_TABLES[v]` (rules R140, R141). -/
structure QTables where
  t0 : QTable
  t1 : QTable
  t2 : QTable
  t3 : QTable
  deriving DecidableEq, Repr

/-- The table parameters of rule R8. Rule R9 (b), every matrix entry is a byte, holds by type. -/
structure Tables where
  mdsMod : Word
  rsMod : Word
  mdsMatrix : Vector (Vector Byte 4) 4
  rsMatrix : Vector (Vector Byte 8) 4
  q0 : QTables
  q1 : QTables
  deriving DecidableEq, Repr

/-- Rule R9 (a) for one modulus: it lies in `0x100..0x1FF`, so bit 8 is its top bit. -/
abbrev Modulus.Valid (m : Word) : Prop := 0x100#32 ≤ m ∧ m ≤ 0x1FF#32

/-- Rule R9 (c) for one table: 16 entries, no two equal, are a permutation of `0..15`. -/
abbrev QTable.Valid (t : QTable) : Prop := t.toList.Nodup

/-- Rule R9 (c) for the four tables of a network. -/
abbrev QTables.Valid (t : QTables) : Prop := t.t0.Valid ∧ t.t1.Valid ∧ t.t2.Valid ∧ t.t3.Valid

/-- The constraints of rule R9 on the table parameters. -/
abbrev Tables.Valid (T : Tables) : Prop :=
  (Modulus.Valid T.mdsMod ∧ Modulus.Valid T.rsMod ∧ T.mdsMod ≠ T.rsMod) ∧ T.q0.Valid ∧ T.q1.Valid

end Sys2Proof
end

