-- ==== Sys2Proof/Machine/Constants.lean ====
section
/-!
DEFINITION. The values the spec assigns to the constants of TF128: 00_scope.md rules R3, R8, the Q tables
of 42_q_network.md rule R141 and the matrices of 43_mixing.md rules R161, R165. The spec marks the table
values as supplied from published TwoFish, not from its source (log entry 7).
-/

namespace Sys2Proof.Machine

/-- The read-only value of register `ID` (rules R3, R22). -/
def idValue : Word := 0x54463132#32

/-- `TF_WINDOW`: the size of the register window in bytes (rules R8, R60). -/
def windowSize : Nat := 0x200

/-- `RHO`: the key-schedule step constant (rules R8, R194). -/
def rho : Word := 0x01010101#32

/-- The table parameters of TF128 (rules R124, R141, R161, R165). -/
def tables : Tables where
  mdsMod := 0x169
  rsMod := 0x14D
  mdsMatrix := #v[
    #v[0x01, 0xEF, 0x5B, 0x5B],
    #v[0x5B, 0xEF, 0xEF, 0x01],
    #v[0xEF, 0x5B, 0x01, 0xEF],
    #v[0xEF, 0x01, 0xEF, 0x5B]]
  rsMatrix := #v[
    #v[0x01, 0xA4, 0x55, 0x87, 0x5A, 0x58, 0xDB, 0x9E],
    #v[0xA4, 0x56, 0x82, 0xF3, 0x1E, 0xC6, 0x68, 0xE5],
    #v[0x02, 0xA1, 0xFC, 0xC1, 0x47, 0xAE, 0x3D, 0x19],
    #v[0xA4, 0x55, 0x87, 0x5A, 0x58, 0xDB, 0x9E, 0x03]]
  q0 := {
    t0 := #v[0x8, 0x1, 0x7, 0xD, 0x6, 0xF, 0x3, 0x2, 0x0, 0xB, 0x5, 0x9, 0xE, 0xC, 0xA, 0x4]
    t1 := #v[0xE, 0xC, 0xB, 0x8, 0x1, 0x2, 0x3, 0x5, 0xF, 0x4, 0xA, 0x6, 0x7, 0x0, 0x9, 0xD]
    t2 := #v[0xB, 0xA, 0x5, 0xE, 0x6, 0xD, 0x9, 0x0, 0xC, 0x8, 0xF, 0x3, 0x2, 0x4, 0x7, 0x1]
    t3 := #v[0xD, 0x7, 0xF, 0x4, 0x1, 0x2, 0x6, 0xE, 0x9, 0xB, 0x3, 0x0, 0x8, 0x5, 0xC, 0xA] }
  q1 := {
    t0 := #v[0x2, 0x8, 0xB, 0xD, 0xF, 0x7, 0x6, 0xE, 0x3, 0x1, 0x9, 0x4, 0x0, 0xA, 0xC, 0x5]
    t1 := #v[0x1, 0xE, 0x2, 0xB, 0x4, 0xC, 0x3, 0x7, 0x6, 0xD, 0xA, 0x5, 0xF, 0x9, 0x0, 0x8]
    t2 := #v[0x4, 0xC, 0x7, 0x5, 0x1, 0x6, 0x9, 0xA, 0x0, 0xE, 0xD, 0x8, 0x2, 0xB, 0x3, 0xF]
    t3 := #v[0xB, 0x9, 0x5, 0x1, 0xC, 0x3, 0xD, 0xE, 0x6, 0x4, 0x7, 0xF, 0x2, 0x0, 0x8, 0xA] }

end Sys2Proof.Machine
end

