-- ==== Sys2Proof/Machine/State.lean ====
section
/-!
DEFINITION. The state of TF128 and of its one port: the registers of 10_state.md rule R21, the hidden
`PEND` of rule R35, and the two fields of the model's own that carry the host's side of the port. The
reasons a step can stop, and the state after reset (rules R42, R280).
-/

namespace Sys2Proof.Machine

/-- Four ordered 32-bit words: a 128-bit block or master key (rules R15, R26, R28). -/
structure Quad where
  w0 : Word
  w1 : Word
  w2 : Word
  w3 : Word
  deriving DecidableEq, Repr

/-- The fields of `STATUS` (rule R24). Bits 7:5 and 31:12 are reserved and read 0, so they are no state:
`Status.toWord` in Flags.lean is the word a read returns (log entry 16). -/
structure Status where
  /-- Bit 0: a command is accepted and not yet completed. -/
  busy : Bool
  /-- Bit 1: a command has completed since the last acceptance or clearing write. -/
  done : Bool
  /-- Bit 2: a KEYSCHED command has completed since reset (rule R34). -/
  keyValid : Bool
  /-- Bit 3: an error is recorded. -/
  err : Bool
  /-- Bit 4: an error occurred while `err` was already 1. -/
  eovf : Bool
  /-- Bits 11:8: the code of the recorded error (rule R251). -/
  errCode : BitVec 4
  deriving DecidableEq, Repr

/-- The key schedule register file: `SKEY0`, `SKEY1` (rule R32) and `KS(0)..KS(39)` (rule R33). -/
structure Schedule where
  skey0 : Word
  skey1 : Word
  ks : Vector Word 40
  deriving DecidableEq, Repr

/-- One event of a run (rule R70). An access carries a bus address and its width in bytes. -/
inductive Event where
  /-- The host reads. -/
  | hostRead (addr width : Nat)
  /-- The host writes the value `v`. -/
  | hostWrite (addr width : Nat) (v : Word)
  /-- The engine agent has its turn: it completes the pending command, if there is one (rule R103). -/
  | engine
  /-- The reset input is asserted (rule R280). -/
  | reset
  deriving DecidableEq, Repr

/-- Reasons a step stops with a fault: NONE. Every error of TF128 is recorded in STATUS and ERRINFO and the
machine goes on (rules R252, R257), and nothing in the engine is stuck (93_implementation_defined.md,
section 1). -/
inductive Fault where
  deriving DecidableEq, Repr

/-- Reasons the model has no step. -/
inductive Refusal where
  /-- Raised by `exec` for an instruction without a meaning. Safe: nothing can be proved of its effect. No
  arm of `exec` raises it. -/
  | notModelled (mnemonic : String)
  /-- Raised by a bus access that is not a 32-bit access at a multiple of 4 (rule R62, parameter
  `MISALIGNED_ACCESS`: "A model refuses such an access"). Safe. -/
  | misalignedAccess
  /-- Raised by a bus access whose address is not in the register window (rule R61: "not decoded by
  TF128"; item I8: refuse). Safe. -/
  | outsideWindow
  /-- Raised by the engine's turn when `PEND` holds a word that is no command. An illegal command never
  reaches `Exec` (rule R104), so no run meets it (log entry 6). Safe. -/
  | pendingNotACommand
  deriving DecidableEq, Repr

/-- The state. `ID` is a constant (rule R22), not state. -/
structure State where
  /-- `CMD`: the last accepted command word (rule R23). -/
  cmd : Word
  /-- `STATUS` (rule R24). -/
  status : Status
  /-- `ERRINFO` (rule R25). -/
  errInfo : Word
  /-- `KEY0..KEY3`: the master key (rule R26). -/
  key : Quad
  /-- `DIN0..DIN3`: the input block (rule R28). -/
  din : Quad
  /-- `DOUT0..DOUT3`: the output block (rule R29). -/
  dout : Quad
  /-- `OPA`, `OPB`, `OPC`: the operands of the primitive commands (rule R30). -/
  opa : Word
  opb : Word
  opc : Word
  /-- `RES`, `RESHI`: the result of the last primitive command (rule R31). -/
  res : Word
  resHi : Word
  /-- `SKEY0`, `SKEY1`, `KS(0..39)` (rules R32, R33). -/
  sched : Schedule
  /-- `PEND`, hidden: the pending command word, if any (rule R35). -/
  pend : Option Word
  /-- The model's own field: the events still to come, the next one first (log entry 2). -/
  events : List Event
  /-- The model's own field: the values the host's reads have returned, the latest first (log entry 3). -/
  replies : List Word
  deriving DecidableEq, Repr

/-- Four zero words. -/
def Quad.zero : Quad := ⟨0, 0, 0, 0⟩

/-- `STATUS` after reset (rule R24). -/
def Status.reset : Status := ⟨false, false, false, false, false, 0⟩

/-- The schedule registers after reset (rule R42). -/
def Schedule.reset : Schedule := ⟨0, 0, Vector.replicate 40 0⟩

/-- The state right after reset (rules R42, R280): every register 0 and `PEND` none. The model's own
fields are empty (log entries 2, 3). -/
def State.reset : State where
  cmd := 0
  status := .reset
  errInfo := 0
  key := .zero
  din := .zero
  dout := .zero
  opa := 0
  opb := 0
  opc := 0
  res := 0
  resHi := 0
  sched := .reset
  pend := none
  events := []
  replies := []

end Sys2Proof.Machine
end

