-- ==== Sys2Proof/Machine/Flags.lean ====
section
/-!
DEFINITION. Every computation on `STATUS` (10_state.md rule R24): the word a read returns, the changes at
acceptance (rule R101), at completion (rule R103), on a host write (rule R24) and when an error is recorded
(60_exceptions.md rule R252). TF128 has no arithmetic flags (rule R38).
-/

namespace Sys2Proof.Machine

/-- The error causes of rule R251. -/
inductive ErrCode where
  | illegalOpcode
  | reservedField
  | noKey
  | busy
  | badAccess
  deriving DecidableEq, Repr

/-- The value of `ERRCODE` for a cause (rule R251); 0 means no error, and 6 to 15 are never produced. -/
def ErrCode.code : ErrCode → BitVec 4
  | .illegalOpcode => 1
  | .reservedField => 2
  | .noKey => 3
  | .busy => 4
  | .badAccess => 5

/-- One bit of a word at a position, 0 elsewhere. -/
def bitAt (b : Bool) (n : Nat) : Word := (BitVec.ofBool b).setWidth 32 <<< n

/-- The word a read of `STATUS` returns; reserved bits read 0 (rule R24). -/
def Status.toWord (t : Status) : Word :=
  bitAt t.busy 0 ||| bitAt t.done 1 ||| bitAt t.keyValid 2 ||| bitAt t.err 3 ||| bitAt t.eovf 4
    ||| (t.errCode.setWidth 32 <<< 8)

/-- Acceptance of a command: BUSY is set and DONE cleared; the error fields stay (rule R101). -/
def Status.accepted (t : Status) : Status := { t with busy := true, done := false }

/-- Completion of a command: BUSY is cleared and DONE set (rule R103). -/
def Status.completed (t : Status) : Status := { t with busy := false, done := true }

/-- KEYSCHED's completion sets KEYVALID (rules R34, R196). -/
def Status.keyed (t : Status) : Status := { t with keyValid := true }

/-- A host write of `v`: write-1-to-clear on DONE, EOVF and ERR, the last clearing ERRCODE too; every
other bit of `v` is ignored (rule R24). -/
def Status.clearedBy (t : Status) (v : Word) : Status :=
  { t with
    done := t.done && !v.getLsbD 1
    eovf := t.eovf && !v.getLsbD 4
    err := t.err && !v.getLsbD 3
    errCode := if v.getLsbD 3 then 0 else t.errCode }

/-- The STATUS part of recording an error: the first one is kept, a later one only sets EOVF (rule R252). -/
def Status.recorded (t : Status) (e : ErrCode) : Status :=
  if t.err then { t with eovf := true } else { t with err := true, errCode := e.code }

end Sys2Proof.Machine
end

