-- ==== Sys2Proof/Machine/Bits.lean ====
section
/-!
DEFINITION. The bit and byte helpers of 00_scope.md rules R11, R12 that every command's rule uses.
-/

namespace Sys2Proof.Machine

/-- `byte(w, j) = w[8j+7 : 8j]`; byte 0 is the least significant (rule R12). -/
def byte (w : Word) (j : Nat) : Byte := w.extractLsb' (8 * j) 8

/-- `word(b0, b1, b2, b3)`: the big-endian packing, the first byte the most significant (rule R12). -/
def word (b0 b1 b2 b3 : Byte) : Word :=
  (b0.setWidth 32 <<< 24) ||| (b1.setWidth 32 <<< 16) ||| (b2.setWidth 32 <<< 8) ||| b3.setWidth 32

/-- `rol32(a, n)` (rule R11). -/
def rol32 (a : Word) (n : Nat) : Word := a.rotateLeft n

/-- `ror32(a, n)` (rule R11). -/
def ror32 (a : Word) (n : Nat) : Word := a.rotateRight n

/-- `ror4(b, 1)`: the 4-bit rotation right by one bit (rule R11). -/
def ror4 (b : Nibble) : Nibble := (b >>> 1) ||| ((b &&& 1) <<< 3)

end Sys2Proof.Machine
end

