-- ==== Sys2Proof/Machine/Operands.lean ====
section
/-!
DEFINITION. Operand assembly (30_encoding.md rule R89): how each command takes its operands from the
registers, and the meanings of the fields RIDX and SEL (rules R81, R83).
-/

namespace Sys2Proof.Machine

/-- SEL of FREDUCE and GFMUL: which modulus (rule R83). -/
inductive ModSel where
  | mds
  | rs
  deriving DecidableEq, Repr

/-- SEL of QPERM: which Q network (rule R83). -/
inductive QVariant where
  | q0
  | q1
  deriving DecidableEq, Repr

/-- SEL of WHITEN: input whitening with `KS(0..3)` or output whitening with `KS(4..7)` (rule R83). -/
inductive WhitenGroup where
  | input
  | output
  deriving DecidableEq, Repr

/-- The modulus a selector names (rules R83, R126). -/
def modulusOf (T : Tables) : ModSel → Word
  | .mds => T.mdsMod
  | .rs => T.rsMod

/-- The four tables `Q_TABLES[v]` (rule R140). -/
def qTablesOf (T : Tables) : QVariant → QTables
  | .q0 => T.q0
  | .q1 => T.q1

/-- The round index `r = zext(c[11:8])` of RNDENC and RNDDEC, in `0..15` (rule R81). -/
def roundIndex (r : Nat) : Fin 16 := Fin.ofNat 16 r

/-- Word `i` of a key or block. -/
def Quad.get (q : Quad) : Fin 4 → Word
  | 0 => q.w0
  | 1 => q.w1
  | 2 => q.w2
  | 3 => q.w3

/-- Replace word `i` of a key or block. -/
def Quad.set (q : Quad) (i : Fin 4) (v : Word) : Quad :=
  match i with
  | 0 => { q with w0 := v }
  | 1 => { q with w1 := v }
  | 2 => { q with w2 := v }
  | 3 => { q with w3 := v }

/-- The u8 operand of GFMUL and QPERM: bits 31:8 of the register are ignored. -/
def lowByte (a : Word) : Byte := byte a 0

/-- The column vector of MDSMIX: `x_k = byte(OPA, k)`, the least significant byte first. -/
def mdsColumn (a : Word) : Vector Byte 4 := #v[byte a 0, byte a 1, byte a 2, byte a 3]

/-- The eight bytes of RSMIX: OPA then OPB, each big-endian. -/
def rsColumn (a b : Word) : Vector Byte 8 :=
  #v[byte a 3, byte a 2, byte a 1, byte a 0, byte b 3, byte b 2, byte b 1, byte b 0]

/-- Byte `n` of the 16-byte string that four words hold: `byte(w_i, 3-k)` for `n = 4i+k`. It is key byte
`M[n]` of the KEY registers (rules R26, R190) and output byte `B'[n]` of the DOUT registers (rule R65). -/
def quadByte (q : Quad) (n : Fin 16) : Byte :=
  byte (q.get ⟨n.val / 4, by omega⟩) (3 - n.val % 4)

/-- The four words that hold a 16-byte string, each `word(M[4j..4j+3])`: how the host packs a key or a block
(rules R26, R28, R65). -/
def packQuad (m : Vector Byte 16) : Quad :=
  ⟨word m[0] m[1] m[2] m[3], word m[4] m[5] m[6] m[7], word m[8] m[9] m[10] m[11],
    word m[12] m[13] m[14] m[15]⟩

/-- Round subkey `Kkey[i]`, held in `KS(i)` (rule R33). -/
def Schedule.subkey (k : Schedule) (i : Fin 40) : Word := k.ks[i.val]

end Sys2Proof.Machine
end

