-- ==== Sys2Proof/Machine/Ops.lean ====
section
/-!
DEFINITION. The shared operations: the register window (10_state.md rule R21, 20_memory.md rules R60 to
R64), recording an error and clearing it (60_exceptions.md rules R252, R258: what TF128 has in place of
taking an exception and returning from one), presenting and accepting a command (rules R86, R100, R101),
its completion (rule R103), and reset (rule R280).
-/

namespace Sys2Proof.Machine

/-! ### The register map -/

/-- The registers of rule R21's map. -/
inductive Reg where
  | id
  | cmd
  | status
  | errInfo
  | key (j : Fin 4)
  | din (i : Fin 4)
  | dout (i : Fin 4)
  | opa
  | opb
  | opc
  | res
  | resHi
  | skey0
  | skey1
  | ks (i : Fin 40)
  deriving DecidableEq, Repr

/-- The window offset of a register (rule R21). -/
def Reg.offset : Reg → Nat
  | .id => 0x000
  | .cmd => 0x004
  | .status => 0x008
  | .errInfo => 0x00C
  | .key j => 0x010 + 4 * j.val
  | .din i => 0x020 + 4 * i.val
  | .dout i => 0x030 + 4 * i.val
  | .opa => 0x040
  | .opb => 0x044
  | .opc => 0x048
  | .res => 0x04C
  | .resHi => 0x050
  | .skey0 => 0x080
  | .skey1 => 0x084
  | .ks i => 0x100 + 4 * i.val

/-- Every register of the map. -/
def Reg.all : List Reg :=
  [.id, .cmd, .status, .errInfo] ++ (List.finRange 4).map .key ++ (List.finRange 4).map .din
    ++ (List.finRange 4).map .dout ++ [.opa, .opb, .opc, .res, .resHi, .skey0, .skey1]
    ++ (List.finRange 40).map .ks

/-- The register at an offset; `none` at a reserved offset (rule R61). -/
def regAt (off : Nat) : Option Reg := Reg.all.find? fun r => r.offset == off

/-- Whether the host's writes reach a register: the RW data registers of rule R64 (d). -/
def Reg.isRW : Reg → Bool
  | .key _ => true
  | .din _ => true
  | .opa => true
  | .opb => true
  | .opc => true
  | .id => false
  | .cmd => false
  | .status => false
  | .errInfo => false
  | .dout _ => false
  | .res => false
  | .resHi => false
  | .skey0 => false
  | .skey1 => false
  | .ks _ => false

/-- The value of a register, `x[NAME]` (rule R13). `ID` is hard-wired (rule R22). -/
def readReg (s : State) : Reg → Word
  | .id => idValue
  | .cmd => s.cmd
  | .status => s.status.toWord
  | .errInfo => s.errInfo
  | .key j => s.key.get j
  | .din i => s.din.get i
  | .dout i => s.dout.get i
  | .opa => s.opa
  | .opb => s.opb
  | .opc => s.opc
  | .res => s.res
  | .resHi => s.resHi
  | .skey0 => s.sched.skey0
  | .skey1 => s.sched.skey1
  | .ks i => s.sched.subkey i

/-- A host write to an RW data register (rule R64 (d)); no other register is reached by it. -/
def writeReg (s : State) (r : Reg) (v : Word) : State :=
  match r with
  | .key j => { s with key := s.key.set j v }
  | .din i => { s with din := s.din.set i v }
  | .opa => { s with opa := v }
  | .opb => { s with opb := v }
  | .opc => { s with opc := v }
  | .id => s
  | .cmd => s
  | .status => s
  | .errInfo => s
  | .dout _ => s
  | .res => s
  | .resHi => s
  | .skey0 => s
  | .skey1 => s
  | .ks _ => s

/-! ### Errors -/

/-- `raise E(info)` (rule R252): the first error is recorded with its info, a later one only sets EOVF.
Nothing else changes (rule R253). There is no trap entry (rule R257). -/
def raise (e : ErrCode) (info : Word) (s : State) : State :=
  { s with
    status := s.status.recorded e
    errInfo := if s.status.err then s.errInfo else info }

/-- A host write to `STATUS` (rule R24): the way a host returns from an error (rule R258). -/
def writeStatus (v : Word) (s : State) : State :=
  { s with
    status := s.status.clearedBy v
    errInfo := if v.getLsbD 3 then 0 else s.errInfo }

/-! ### A command's life -/

/-- `check(c, kv)` (rule R86): the error a presented word gives, `none` for OK. -/
def check (c : Word) (keyValid : Bool) : Option ErrCode :=
  let op := opcodeOf c
  if op ∉ [0x00#8, 0x01#8, 0x02#8, 0x03#8, 0x04#8, 0x05#8, 0x06#8, 0x10#8, 0x11#8, 0x12#8, 0x13#8,
      0x14#8, 0x15#8, 0x16#8] then some .illegalOpcode
  else if rsvdOf c ≠ 0 then some .reservedField
  else if op ∉ [0x04#8, 0x05#8] ∧ ridxOf c ≠ 0 then some .reservedField
  else if op ∉ [0x06#8, 0x11#8, 0x12#8, 0x13#8] ∧ selOf c = true then some .reservedField
  else if op ∈ [0x02#8, 0x03#8, 0x04#8, 0x05#8, 0x06#8] ∧ keyValid = false then some .noKey
  else none

/-- `accept(c)` (rule R101). -/
def accept (c : Word) (s : State) : State :=
  { s with cmd := c, pend := some c, status := s.status.accepted }

/-- `present(c)` (rule R100): reject with the error of `check`, or accept. -/
def present (c : Word) (s : State) : State :=
  match check c s.status.keyValid with
  | some e => raise e c s
  | none => accept c s

/-- What every command's completion does beside its own results (rule R103). -/
def complete (s : State) : State := { s with status := s.status.completed, pend := none }

/-- Completion of a primitive command: its result in `RES` and `RESHI` (rule R31), committed with the
rest of the completion step (rule R27). -/
def completeResult (lo hi : Word) (s : State) : State := complete { s with res := lo, resHi := hi }

/-- Completion of a block, round or whitening command: its block in `DOUT` (rules R27, R29). -/
def completeBlock (b : Quad) (s : State) : State := complete { s with dout := b }

/-! ### The bus -/

/-- `MemRead(off, 4)` (rule R63): the register's value, or 0 at a reserved offset. -/
def memRead (off : Nat) (s : State) : Word :=
  match regAt off with
  | some r => readReg s r
  | none => 0

/-- `MemWrite(off, 4, v)` at an aligned offset in the window: the first case of rule R64 that applies. -/
def memWrite (off : Nat) (v : Word) (s : State) : State :=
  if off = 0x008 then writeStatus v s
  else if s.status.busy = true then raise .busy (BitVec.ofNat 32 off) s
  else if off = 0x004 then present v s
  else match regAt off with
    | some r => if r.isRW then writeReg s r v else raise .badAccess (BitVec.ofNat 32 off) s
    | none => raise .badAccess (BitVec.ofNat 32 off) s

/-- The one form of access rule R62 admits: 32 bits wide at a multiple of 4. -/
abbrev alignedAccess (off width : Nat) : Prop := width = 4 ∧ off % 4 = 0

/-- A host read at a window offset: the value goes to the host and no register changes (rule R63). Offsets
at or above `TF_WINDOW` are not decoded (rule R61), and an access that rule R62 does not admit is refused. -/
def readAt (off width : Nat) (s : State) : Host.Outcome State Fault Refusal :=
  if off < windowSize then
    if alignedAccess off width then .next { s with replies := memRead off s :: s.replies }
    else .refused .misalignedAccess
  else .refused .outsideWindow

/-- A host write at a window offset (rules R61, R62, R64). -/
def writeAt (off width : Nat) (v : Word) (s : State) : Host.Outcome State Fault Refusal :=
  if off < windowSize then
    if alignedAccess off width then .next (memWrite off v s) else .refused .misalignedAccess
  else .refused .outsideWindow

/-- A host read of a bus address: offsets count from `TF_BASE`, and below it nothing is decoded (rule R60). -/
def busRead (addr width : Nat) (s : State) : Host.Outcome State Fault Refusal :=
  if Config.tfBase ≤ addr then readAt (addr - Config.tfBase) width s else .refused .outsideWindow

/-- A host write to a bus address (rule R60). -/
def busWrite (addr width : Nat) (v : Word) (s : State) : Host.Outcome State Fault Refusal :=
  if Config.tfBase ≤ addr then writeAt (addr - Config.tfBase) width v s else .refused .outsideWindow

/-! ### Reset -/

/-- The reset event (rule R280): every register as after reset, a pending command abandoned (rule R281).
The host's side of the port, the model's own two fields, is not the engine's and stays (log entry 10). -/
def applyReset (s : State) : State := { State.reset with events := s.events, replies := s.replies }

/-- The state in which the engine's next turn runs the command word `c`: as `accept` leaves it, with the
turn next (log entry 9). -/
def placeCommand (c : Word) (s : State) : State :=
  { accept c s with events := .engine :: s.events }

end Sys2Proof.Machine
end

