-- ==== Sys2Proof/Machine/Field.lean ====
section
/-!
DEFINITION. Galois-field arithmetic (41_field_arith.md): `polyMul`, `fieldReduce`, `fieldMul` and the
commands POLYMUL, FREDUCE, GFMUL.
-/

namespace Sys2Proof.Machine

/-- Carry-less multiplication (rule R120). -/
def polyMul (a b : Word) : DWord :=
  (List.range 32).foldl (fun p i => if a.getLsbD i then p ^^^ (b.setWidth 64 <<< i) else p) 0

/-- One iteration of the reduction: the running value, and the modulus shifted to the tested bit. -/
def reduceStep (tm : DWord × DWord) (i : Nat) : DWord × DWord :=
  (if tm.1.getLsbD (15 - i) then tm.1 ^^^ tm.2 else tm.1, tm.2 >>> 1)

/-- Field reduction: 8 iterations of conditional XOR-shift (rule R122). -/
def fieldReduce (t : DWord) (m : Word) : DWord :=
  ((List.range 8).foldl reduceStep (t, m.setWidth 64 <<< 7)).1

/-- The product of two bytes in the field of a modulus (rule R124). The result of `fieldReduce` is below
`0x100` for a valid modulus (rule R123 (a)), so taking its low byte drops nothing (log entry 15). -/
def fieldMul (a b : Byte) (m : Word) : Byte :=
  (fieldReduce (polyMul (a.setWidth 32) (b.setWidth 32)) m).setWidth 8

/-- FREDUCE under a selected modulus (rule R126). -/
def freduce (sel : ModSel) (s : State) : State :=
  completeResult ((fieldReduce (s.opa.setWidth 64) (modulusOf tables sel)).setWidth 32) 0 s

/-- GFMUL under a selected modulus (rule R127). -/
def gfmul (sel : ModSel) (s : State) : State :=
  completeResult ((fieldMul (lowByte s.opa) (lowByte s.opb) (modulusOf tables sel)).setWidth 32) 0 s

/-- `tf.polymul`: the 64-bit product is `RESHI:RES` (rule R125). -/
def execPolymul (s : State) : Host.Outcome State Fault Refusal :=
  .next (completeResult ((polyMul s.opa s.opb).extractLsb' 0 32) ((polyMul s.opa s.opb).extractLsb' 32 32) s)

/-- `tf.freduce.mds` (rule R126, SEL 0). -/
def execFreduceMds (s : State) : Host.Outcome State Fault Refusal := .next (freduce .mds s)

/-- `tf.freduce.rs` (rule R126, SEL 1). -/
def execFreduceRs (s : State) : Host.Outcome State Fault Refusal := .next (freduce .rs s)

/-- `tf.gfmul.mds` (rule R127, SEL 0). -/
def execGfmulMds (s : State) : Host.Outcome State Fault Refusal := .next (gfmul .mds s)

/-- `tf.gfmul.rs` (rule R127, SEL 1). -/
def execGfmulRs (s : State) : Host.Outcome State Fault Refusal := .next (gfmul .rs s)

end Sys2Proof.Machine
end

