-- ==== Sys2Proof/Machine/Mixing.lean ====
section
/-!
DEFINITION. MDS and RS mixing, MDSMIX and RSMIX (43_mixing.md).
-/

namespace Sys2Proof.Machine

/-- One output byte: the XOR over k of `fieldMul(row[k], x[k])` (rules R160, R163). -/
def mixRow {n : Nat} (m : Word) (row x : Vector Byte n) : Byte :=
  (List.zipWith (fun a b => fieldMul a b m) row.toList x.toList).foldl (· ^^^ ·) 0

/-- A matrix times a column vector, packed so that row j is byte j of the word (rules R160, R163). -/
def mix {n : Nat} (m : Word) (matrix : Vector (Vector Byte n) 4) (x : Vector Byte n) : Word :=
  word (mixRow m matrix[3] x) (mixRow m matrix[2] x) (mixRow m matrix[1] x) (mixRow m matrix[0] x)

/-- `mdsMix(x0, .., x3)` (rule R160). -/
def mdsMix (T : Tables) (x : Vector Byte 4) : Word := mix T.mdsMod T.mdsMatrix x

/-- `rsMix(m0, .., m7)` (rule R163). -/
def rsMix (T : Tables) (x : Vector Byte 8) : Word := mix T.rsMod T.rsMatrix x

/-- `tf.mdsmix` (rule R167). -/
def execMdsmix (s : State) : Host.Outcome State Fault Refusal :=
  .next (completeResult (mdsMix tables (mdsColumn s.opa)) 0 s)

/-- `tf.rsmix` (rule R168). -/
def execRsmix (s : State) : Host.Outcome State Fault Refusal :=
  .next (completeResult (rsMix tables (rsColumn s.opa s.opb)) 0 s)

end Sys2Proof.Machine
end

