-- ==== Sys2Proof/Machine/QNetwork.lean ====
section
/-!
DEFINITION. The Q networks and QPERM (42_q_network.md).
-/

namespace Sys2Proof.Machine

/-- Entry `n` of a nibble table (rule R140). -/
def qLookup (t : QTable) (n : Nibble) : Nibble := t[n.toNat]'n.isLt

/-- One mixing stage: `(a ^ b, a ^ ror4(b, 1) ^ (8a mod 16))` (rule R140, steps 2 and 4). -/
def qStage (a b : Nibble) : Nibble × Nibble := (a ^^^ b, a ^^^ ror4 b ^^^ 8#4 * a)

/-- One Q network from its four tables (rule R140). -/
def qNetwork (t : QTables) (x : Byte) : Byte :=
  let m1 := qStage (x.extractLsb' 4 4) (x.extractLsb' 0 4)
  let m2 := qStage (qLookup t.t0 m1.1) (qLookup t.t1 m1.2)
  ((qLookup t.t3 m2.2).setWidth 8 <<< 4) ||| (qLookup t.t2 m2.1).setWidth 8

/-- `Q(v, x)` (rule R140). -/
def q (T : Tables) (v : QVariant) (x : Byte) : Byte := qNetwork (qTablesOf T v) x

/-- QPERM of a selected variant (rule R144). -/
def qperm (v : QVariant) (s : State) : State :=
  completeResult ((q tables v (lowByte s.opa)).setWidth 32) 0 s

/-- `tf.qperm.q0` (rule R144, SEL 0). -/
def execQpermQ0 (s : State) : Host.Outcome State Fault Refusal := .next (qperm .q0 s)

/-- `tf.qperm.q1` (rule R144, SEL 1). -/
def execQpermQ1 (s : State) : Host.Outcome State Fault Refusal := .next (qperm .q1 s)

end Sys2Proof.Machine
end

