-- ==== Sys2Proof/Machine/GFunction.lean ====
section
/-!
DEFINITION. The G function and GFUNC (44_g_function.md).
-/

namespace Sys2Proof.Machine

/-- The variants of the three Q applications for byte j, `PAT[j]` (rule R180). -/
def gPattern : Fin 4 → QVariant × QVariant × QVariant
  | 0 => (.q0, .q0, .q1)
  | 1 => (.q1, .q0, .q0)
  | 2 => (.q0, .q1, .q1)
  | 3 => (.q1, .q1, .q0)

/-- `y[j]`: the three chained Q and XOR stages on byte j (rule R180). -/
def gByte (T : Tables) (x s0 s1 : Word) (j : Fin 4) : Byte :=
  let v := gPattern j
  q T v.2.2 (q T v.2.1 (q T v.1 (byte x j.val) ^^^ byte s0 j.val) ^^^ byte s1 j.val)

/-- `G(X, S0, S1)`: the MDS input order is `(y1, y2, y3, y0)` (rule R180). -/
def gFunction (T : Tables) (x s0 s1 : Word) : Word :=
  mdsMix T #v[gByte T x s0 s1 1, gByte T x s0 s1 2, gByte T x s0 s1 3, gByte T x s0 s1 0]

/-- `tf.gfunc` (rule R184). -/
def execGfunc (s : State) : Host.Outcome State Fault Refusal :=
  .next (completeResult (gFunction tables s.opa s.opb s.opc) 0 s)

end Sys2Proof.Machine
end

