-- ==== Sys2Proof/Machine/Round.lean ====
section
/-!
DEFINITION. The round transform, RNDENC and RNDDEC (46_round_transform.md).
-/

namespace Sys2Proof.Machine

/-- `Kkey[2r+8]` (rule R211). -/
def roundKey0 (k : Schedule) (r : Fin 16) : Word := k.subkey ⟨2 * r.val + 8, by omega⟩

/-- `Kkey[2r+9]` (rule R211). -/
def roundKey1 (k : Schedule) (r : Fin 16) : Word := k.subkey ⟨2 * r.val + 9, by omega⟩

/-- `F(a, b, r) = (F0, F1)` (rule R210). -/
def roundF (T : Tables) (k : Schedule) (a b : Word) (r : Fin 16) : Word × Word :=
  let t0 := gFunction T a k.skey0 k.skey1
  let t1 := gFunction T (rol32 b 8) k.skey0 k.skey1
  (t1 + t0 + roundKey0 k r, 2 * t1 + t0 + roundKey1 k r)

/-- The encrypt round `E_r`, one simultaneous assignment (rule R212). -/
def encRound (T : Tables) (k : Schedule) (r : Fin 16) (b : Quad) : Quad :=
  let f := roundF T k b.w0 b.w1 r
  ⟨ror32 (b.w2 ^^^ f.1) 1, rol32 b.w3 1 ^^^ f.2, b.w0, b.w1⟩

/-- The decrypt round `D_r` (rule R213). -/
def decRound (T : Tables) (k : Schedule) (r : Fin 16) (b : Quad) : Quad :=
  let f := roundF T k b.w2 b.w3 r
  ⟨b.w2, b.w3, rol32 b.w0 1 ^^^ f.1, ror32 (b.w1 ^^^ f.2) 1⟩

/-- `tf.rndenc r` (rule R215). -/
def execRndenc (r : Nat) (s : State) : Host.Outcome State Fault Refusal :=
  .next (completeBlock (encRound tables s.sched (roundIndex r) s.din) s)

/-- `tf.rnddec r` (rule R216). -/
def execRnddec (r : Nat) (s : State) : Host.Outcome State Fault Refusal :=
  .next (completeBlock (decRound tables s.sched (roundIndex r) s.din) s)

end Sys2Proof.Machine
end

