-- ==== Sys2Proof/Machine/Block.lean ====
section
/-!
DEFINITION. The block cipher driver: WHITEN, ENCRYPT and DECRYPT (47_block_driver.md).
-/

namespace Sys2Proof.Machine

/-- The four key words of a whitening group, `Kkey[4g..4g+3]` (rule R230). -/
def whitenKeys (k : Schedule) : WhitenGroup → Quad
  | .input => ⟨k.subkey 0, k.subkey 1, k.subkey 2, k.subkey 3⟩
  | .output => ⟨k.subkey 4, k.subkey 5, k.subkey 6, k.subkey 7⟩

/-- `whiten(R, g)` (rule R230). -/
def whiten (k : Schedule) (g : WhitenGroup) (b : Quad) : Quad :=
  let w := whitenKeys k g
  ⟨b.w0 ^^^ w.w0, b.w1 ^^^ w.w1, b.w2 ^^^ w.w2, b.w3 ^^^ w.w3⟩

/-- `encrypt(P)`: rounds 0 to 15 between the whitenings, no final swap (rules R232, R236). -/
def encryptBlock (T : Tables) (k : Schedule) (p : Quad) : Quad :=
  whiten k .output ((List.finRange 16).foldl (fun b r => encRound T k r b) (whiten k .input p))

/-- `decrypt(C)`: rounds 15 down to 0 between the whitenings (rules R232, R236). -/
def decryptBlock (T : Tables) (k : Schedule) (c : Quad) : Quad :=
  whiten k .input ((List.finRange 16).reverse.foldl (fun b r => decRound T k r b) (whiten k .output c))

/-- `tf.whiten.in` (rule R231, SEL 0). -/
def execWhitenIn (s : State) : Host.Outcome State Fault Refusal :=
  .next (completeBlock (whiten s.sched .input s.din) s)

/-- `tf.whiten.out` (rule R231, SEL 1). -/
def execWhitenOut (s : State) : Host.Outcome State Fault Refusal :=
  .next (completeBlock (whiten s.sched .output s.din) s)

/-- `tf.encrypt` (rule R233). -/
def execEncrypt (s : State) : Host.Outcome State Fault Refusal :=
  .next (completeBlock (encryptBlock tables s.sched s.din) s)

/-- `tf.decrypt` (rule R234). -/
def execDecrypt (s : State) : Host.Outcome State Fault Refusal :=
  .next (completeBlock (decryptBlock tables s.sched s.din) s)

end Sys2Proof.Machine
end

