-- ==== Sys2Proof/Machine/Control.lean ====
section
/-!
DEFINITION. `tf.nop` (40_command_control.md rule R105). A meaning is the whole completion step of its
command (rules R27, R41, R103): its results and the changes of STATUS and PEND in one commit (log entry 8).
No meaning checks KEYVALID again: that check is made once, at presentation (rule R86; log entry 14).
-/

namespace Sys2Proof.Machine

/-- `tf.nop`: only the generic effects of completion (rule R105). -/
def execNop (s : State) : Host.Outcome State Fault Refusal := .next (complete s)

end Sys2Proof.Machine
end

