-- ==== Sys2Proof/Machine/KeySchedule.lean ====
section
/-!
DEFINITION. The key-schedule generator and KEYSCHED (45_key_schedule.md).
-/

namespace Sys2Proof.Machine

/-- `S0`, from the first half of the key (rules R164, R192). -/
def sboxKey0 (T : Tables) (key : Quad) : Word :=
  rsMix T #v[quadByte key 0, quadByte key 1, quadByte key 2, quadByte key 3,
    quadByte key 4, quadByte key 5, quadByte key 6, quadByte key 7]

/-- `S1`, from the second half of the key (rules R164, R192). -/
def sboxKey1 (T : Tables) (key : Quad) : Word :=
  rsMix T #v[quadByte key 8, quadByte key 9, quadByte key 10, quadByte key 11,
    quadByte key 12, quadByte key 13, quadByte key 14, quadByte key 15]

/-- `word(M[4j..4j+3])`: one key word from its bytes (rules R191, R193). -/
def keyWord (key : Quad) (j : Fin 4) : Word :=
  word (quadByte key ⟨4 * j.val, by omega⟩) (quadByte key ⟨4 * j.val + 1, by omega⟩)
    (quadByte key ⟨4 * j.val + 2, by omega⟩) (quadByte key ⟨4 * j.val + 3, by omega⟩)

/-- `A` of step i: `G(2i·ρ, Me)` with `Me = (word(M[8..11]), word(M[0..3]))` (rules R193, R194). -/
def subkeyA (T : Tables) (key : Quad) (i : Nat) : Word :=
  gFunction T (2 * BitVec.ofNat 32 i * rho) (keyWord key 2) (keyWord key 0)

/-- `B` of step i: `G(2i·ρ + ρ, Mo)` rotated left by 8, with `Mo = (word(M[12..15]), word(M[4..7]))`
(rules R193, R194). -/
def subkeyB (T : Tables) (key : Quad) (i : Nat) : Word :=
  rol32 (gFunction T (2 * BitVec.ofNat 32 i * rho + rho) (keyWord key 3) (keyWord key 1)) 8

/-- `Kkey[n]`: `A + B` for even n, `rol32(A + 2·B, 9)` for odd n, with A, B of step `n / 2` (rule R194). -/
def roundSubkey (T : Tables) (key : Quad) (n : Nat) : Word :=
  if n % 2 = 0 then subkeyA T key (n / 2) + subkeyB T key (n / 2)
  else rol32 (subkeyA T key (n / 2) + 2 * subkeyB T key (n / 2)) 9

/-- The whole schedule of a key (rules R192, R194). -/
def keySchedule (T : Tables) (key : Quad) : Schedule where
  skey0 := sboxKey0 T key
  skey1 := sboxKey1 T key
  ks := Vector.ofFn fun n : Fin 40 => roundSubkey T key n.val

/-- `tf.keysched` (rule R196): the schedule and KEYVALID are committed with BUSY and DONE (rule R27). -/
def execKeysched (s : State) : Host.Outcome State Fault Refusal :=
  .next (complete { s with sched := keySchedule tables s.key, status := s.status.keyed })

end Sys2Proof.Machine
end

