-- ==== Sys2Proof/Machine/Dispatch.lean ====
section
/-!
DEFINITION. `Exec(c)`'s dispatch to the semantics of each command (40_command_control.md rule R104).
-/

namespace Sys2Proof.Machine

def exec (i : Instr) (s : State) : Host.Outcome State Fault Refusal :=
  match i with
  | .nop => Sys2Proof.Machine.execNop s
  | .keysched => Sys2Proof.Machine.execKeysched s
  | .encrypt => Sys2Proof.Machine.execEncrypt s
  | .decrypt => Sys2Proof.Machine.execDecrypt s
  | .rndenc r => Sys2Proof.Machine.execRndenc r s
  | .rnddec r => Sys2Proof.Machine.execRnddec r s
  | .whitenIn => Sys2Proof.Machine.execWhitenIn s
  | .whitenOut => Sys2Proof.Machine.execWhitenOut s
  | .polymul => Sys2Proof.Machine.execPolymul s
  | .freduceMds => Sys2Proof.Machine.execFreduceMds s
  | .freduceRs => Sys2Proof.Machine.execFreduceRs s
  | .gfmulMds => Sys2Proof.Machine.execGfmulMds s
  | .gfmulRs => Sys2Proof.Machine.execGfmulRs s
  | .qpermQ0 => Sys2Proof.Machine.execQpermQ0 s
  | .qpermQ1 => Sys2Proof.Machine.execQpermQ1 s
  | .mdsmix => Sys2Proof.Machine.execMdsmix s
  | .rsmix => Sys2Proof.Machine.execRsmix s
  | .gfunc => Sys2Proof.Machine.execGfunc s

end Sys2Proof.Machine
end

