-- ==== Sys2Proof/Machine/Events.lean ====
section
/-!
DEFINITION. One event of a run (20_memory.md rule R70): a host access, the engine's turn, or reset. No
clock is counted (rules R300, R301; log entry 18).
-/

namespace Sys2Proof.Machine

/-- The engine's turn: it completes the pending command (rule R103), and with none pending it is idle and
all state is kept (rule R266; log entry 11). -/
def engineTurn (s : State) : Host.Outcome State Fault Refusal :=
  match s.pend with
  | none => .next s
  | some c =>
    match decode c with
    | .ok i => exec i s
    | .error _ => .refused .pendingNotACommand

/-- What one event does. -/
def runEvent (e : Event) (s : State) : Host.Outcome State Fault Refusal :=
  match e with
  | .hostRead addr width => busRead addr width s
  | .hostWrite addr width v => busWrite addr width v s
  | .engine => engineTurn s
  | .reset => .next (applyReset s)

/-- The next event of the run is taken and runs; when the host and the reset input do nothing more, every
turn is the engine's (weak fairness, rule R102; log entry 2). -/
def nextEvent (s : State) : Host.Outcome State Fault Refusal :=
  match s.events with
  | [] => engineTurn s
  | e :: es => runEvent e { s with events := es }

end Sys2Proof.Machine
end

