-- ==== Sys2Proof/Machine/HostNotation.lean ====
section
/-!
DEFINITION. The notional host of 30_encoding.md rules R91, R92. It is not part of TF128 and not part of
`State`: this file only gives the notation its exact meaning, over the same bus accesses `step` makes
(log entry 17).
-/

namespace Sys2Proof.Machine

/-- The operations of rule R91. Registers are `h0..h15`, and a label is the index of an operation. -/
inductive HostOp where
  | li (hd : Fin 16) (imm : Word)
  | wr (off : Nat) (hs : Fin 16)
  | wri (off : Nat) (imm : Word)
  | rd (hd : Fin 16) (off : Nat)
  | andi (hd hs : Fin 16) (imm : Word)
  | ori (hd hs : Fin 16) (imm : Word)
  | xor (hd ha hb : Fin 16)
  | addi (hd hs : Fin 16) (imm : Word)
  | shli (hd hs : Fin 16) (n : Nat)
  | bnez (hs : Fin 16) (label : Nat)
  | beqz (hs : Fin 16) (label : Nat)
  | bnei (hs : Fin 16) (imm : Word) (label : Nat)
  | halt
  deriving DecidableEq, Repr

/-- The notional host: `h0..h15` and the index of its next operation (rule R91). -/
structure HostState where
  h : Vector Word 16
  next : Nat
  deriving DecidableEq, Repr

/-- A host and the engine it drives. -/
structure System where
  host : HostState
  engine : State
  deriving DecidableEq, Repr

/-- Write a host register and go on to the next operation. -/
def HostState.setReg (p : HostState) (hd : Fin 16) (v : Word) : HostState :=
  ⟨p.h.set hd.val v, p.next + 1⟩

/-- Go to the label if the condition holds, else to the next operation. -/
def HostState.branch (p : HostState) (taken : Bool) (label : Nat) : HostState :=
  ⟨p.h, if taken then label else p.next + 1⟩

/-- A bus write by the host program. -/
def System.write (y : System) (off : Nat) (v : Word) : Host.Outcome System Fault Refusal :=
  match writeAt off 4 v y.engine with
  | .next s => .next ⟨⟨y.host.h, y.host.next + 1⟩, s⟩
  | .fault f => .fault f
  | .refused r => .refused r

/-- A bus read by the host program. -/
def System.read (y : System) (hd : Fin 16) (off : Nat) : Host.Outcome System Fault Refusal :=
  match readAt off 4 y.engine with
  | .next s => .next ⟨y.host.setReg hd (memRead off y.engine), s⟩
  | .fault f => .fault f
  | .refused r => .refused r

/-- One operation of the host (rule R91). -/
def hostOp (op : HostOp) (y : System) : Host.Outcome System Fault Refusal :=
  let p := y.host
  match op with
  | .li hd imm => .next { y with host := p.setReg hd imm }
  | .wr off hs => y.write off p.h[hs]
  | .wri off imm => y.write off imm
  | .rd hd off => y.read hd off
  | .andi hd hs imm => .next { y with host := p.setReg hd (p.h[hs] &&& imm) }
  | .ori hd hs imm => .next { y with host := p.setReg hd (p.h[hs] ||| imm) }
  | .xor hd ha hb => .next { y with host := p.setReg hd (p.h[ha] ^^^ p.h[hb]) }
  | .addi hd hs imm => .next { y with host := p.setReg hd (p.h[hs] + imm) }
  | .shli hd hs n => .next { y with host := p.setReg hd (p.h[hs] <<< n) }
  | .bnez hs l => .next { y with host := p.branch (p.h[hs] != 0) l }
  | .beqz hs l => .next { y with host := p.branch (p.h[hs] == 0) l }
  | .bnei hs imm l => .next { y with host := p.branch (p.h[hs] != imm) l }
  | .halt => .next y

/-- The host's turn: its next operation, or nothing when its program has ended. -/
def hostTurn (prog : List HostOp) (y : System) : Host.Outcome System Fault Refusal :=
  match prog[y.host.next]? with
  | some op => hostOp op y
  | none => .next y

/-- `k` turns of the host in a row, stopping at a refusal. -/
def hostTurns (prog : List HostOp) : Nat → System → Host.Outcome System Fault Refusal
  | 0, y => .next y
  | k + 1, y =>
    match hostTurn prog y with
    | .next y' => hostTurns prog k y'
    | .fault f => .fault f
    | .refused r => .refused r

/-- The engine's turn beside the host (rule R70: the two interleave). -/
def systemEngineTurn (y : System) : Host.Outcome System Fault Refusal :=
  match engineTurn y.engine with
  | .next s => .next { y with engine := s }
  | .fault f => .fault f
  | .refused r => .refused r

/-- The start of every program: the reset state and `h0..h15` all 0 (rules R91, R282). -/
def System.start : System := ⟨⟨Vector.replicate 16 0, 0⟩, State.reset⟩

/-! ### Pseudo-instructions (rule R92). One that holds a label takes the index `l` of its first operation. -/

/-- `issue <mnemonic>`. -/
def issue (i : Instr) : List HostOp := [.wri 0x004 (encode i)]

/-- `issuer hs`. -/
def issuer (hs : Fin 16) : List HostOp := [.wr 0x004 hs]

/-- `wait`: poll STATUS until BUSY = 0. -/
def wait (l : Nat) : List HostOp := [.rd 15 0x008, .andi 15 15 1, .bnez 15 l]

/-- `run <mnemonic>`. -/
def runCommand (i : Instr) (l : Nat) : List HostOp := issue i ++ wait (l + 1)

/-- `ldkey a, b, c, d`. -/
def ldkey (a b c d : Word) : List HostOp := [.wri 0x010 a, .wri 0x014 b, .wri 0x018 c, .wri 0x01C d]

/-- `ldblk a, b, c, d`. -/
def ldblk (a b c d : Word) : List HostOp := [.wri 0x020 a, .wri 0x024 b, .wri 0x028 c, .wri 0x02C d]

/-- `rdblk hA, hB, hC, hD`. -/
def rdblk (a b c d : Fin 16) : List HostOp := [.rd a 0x030, .rd b 0x034, .rd c 0x038, .rd d 0x03C]

/-- `cpblk`: copy DOUT0..3 to DIN0..3 through h15. -/
def cpblk : List HostOp :=
  [.rd 15 0x030, .wr 0x020 15, .rd 15 0x034, .wr 0x024 15, .rd 15 0x038, .wr 0x028 15, .rd 15 0x03C,
    .wr 0x02C 15]

/-- `clrst`: clear DONE, ERR, EOVF, ERRCODE and ERRINFO. -/
def clrst : List HostOp := [.wri 0x008 0x0000001A]

end Sys2Proof.Machine
end

