-- ==== Sys2Proof/Safety.lean ====
section
/-!
DEFINITION. The terms the claims use: the invariant of the engine, what a safe run is, the read/write matrix
of 10_state.md rule R41, runs of several commands, and the errors a command word can meet.
-/

namespace Sys2Proof.Machine

/-- What holds of the engine in every state a run reaches. -/
structure EngineInv (s : State) : Prop where
  /-- `PEND = none` exactly when `BUSY = 0` (rule R35). -/
  busy_pend : s.status.busy = s.pend.isSome
  /-- CMD equals c while `PEND = c` (rule R35). -/
  cmd_pend : ∀ c, s.pend = some c → s.cmd = c
  /-- A pending word passed `check`, its key condition too (rules R100, R104). -/
  pend_legal : ∀ c, s.pend = some c → check c s.status.keyValid = none
  /-- CMD holds an accepted word, or 0, which is `tf.nop` (rule R23). -/
  cmd_legal : check s.cmd s.status.keyValid = none
  /-- Acceptance clears DONE, and only completion sets it (rules R24, R101, R103). -/
  busy_done : s.status.busy = true → s.status.done = false
  /-- ERRCODE and ERRINFO are 0 when ERR = 0 (rules R24, R25). -/
  no_error : s.status.err = false → s.status.errCode = 0 ∧ s.errInfo = 0
  /-- ERRCODE holds one of the codes 1 to 5 when ERR = 1 (rule R251). -/
  error_code : s.status.err = true → 1#4 ≤ s.status.errCode ∧ s.status.errCode ≤ 5#4
  /-- The schedule reads 0 until a KEYSCHED has completed (rule R34). -/
  no_key : s.status.keyValid = false → s.sched = Schedule.reset
  /-- Afterwards it is the schedule of some key (rules R33, R34, R198). -/
  key_schedule : s.status.keyValid = true → ∃ key, s.sched = keySchedule tables key

/-- An event the spec gives an outcome: every bus access is a 32-bit access at a multiple of 4 in the
register window (rules R61, R62). -/
def Event.Admitted : Event → Prop
  | .hostRead addr width =>
    ∃ off, addr = Config.tfBase + off ∧ off < windowSize ∧ alignedAccess off width
  | .hostWrite addr width _ =>
    ∃ off, addr = Config.tfBase + off ∧ off < windowSize ∧ alignedAccess off width
  | .engine => True
  | .reset => True

/-- A well-formed run goes on from here: the invariant holds and every coming access is one the spec gives an
outcome. -/
def Safe (s : State) : Prop := EngineInv s ∧ ∀ e ∈ s.events, e.Admitted

/-- The registers a command's completion reads, each with the mask of the bits it reads (rule R41). -/
def Instr.reads : Instr → List (Reg × Word)
  | .nop => []
  | .keysched => (List.finRange 4).map fun j => (.key j, 0xFFFFFFFF)
  | .encrypt => cipherReads
  | .decrypt => cipherReads
  | .rndenc r => roundReads (roundIndex r)
  | .rnddec r => roundReads (roundIndex r)
  | .whitenIn => blockReads ++ (List.finRange 4).map fun i => (.ks ⟨i.val, by omega⟩, 0xFFFFFFFF)
  | .whitenOut => blockReads ++ (List.finRange 4).map fun i => (.ks ⟨4 + i.val, by omega⟩, 0xFFFFFFFF)
  | .polymul => [(.opa, 0xFFFFFFFF), (.opb, 0xFFFFFFFF)]
  | .freduceMds => [(.opa, 0xFFFFFFFF)]
  | .freduceRs => [(.opa, 0xFFFFFFFF)]
  | .gfmulMds => [(.opa, 0xFF), (.opb, 0xFF)]
  | .gfmulRs => [(.opa, 0xFF), (.opb, 0xFF)]
  | .qpermQ0 => [(.opa, 0xFF)]
  | .qpermQ1 => [(.opa, 0xFF)]
  | .mdsmix => [(.opa, 0xFFFFFFFF)]
  | .rsmix => [(.opa, 0xFFFFFFFF), (.opb, 0xFFFFFFFF)]
  | .gfunc => [(.opa, 0xFFFFFFFF), (.opb, 0xFFFFFFFF), (.opc, 0xFFFFFFFF)]
where
  blockReads : List (Reg × Word) := (List.finRange 4).map fun i => (.din i, 0xFFFFFFFF)
  sboxReads : List (Reg × Word) := [(.skey0, 0xFFFFFFFF), (.skey1, 0xFFFFFFFF)]
  cipherReads : List (Reg × Word) :=
    blockReads ++ sboxReads ++ (List.finRange 40).map fun i => (.ks i, 0xFFFFFFFF)
  roundReads (r : Fin 16) : List (Reg × Word) :=
    blockReads ++ sboxReads
      ++ [(.ks ⟨2 * r.val + 8, by omega⟩, 0xFFFFFFFF), (.ks ⟨2 * r.val + 9, by omega⟩, 0xFFFFFFFF)]

/-- The registers a command's completion writes, beside STATUS (rule R41). -/
def Instr.writes : Instr → List Reg
  | .nop => []
  | .keysched => [.skey0, .skey1] ++ (List.finRange 40).map .ks
  | .encrypt => (List.finRange 4).map .dout
  | .decrypt => (List.finRange 4).map .dout
  | .rndenc _ => (List.finRange 4).map .dout
  | .rnddec _ => (List.finRange 4).map .dout
  | .whitenIn => (List.finRange 4).map .dout
  | .whitenOut => (List.finRange 4).map .dout
  | .polymul => [.res, .resHi]
  | .freduceMds => [.res, .resHi]
  | .freduceRs => [.res, .resHi]
  | .gfmulMds => [.res, .resHi]
  | .gfmulRs => [.res, .resHi]
  | .qpermQ0 => [.res, .resHi]
  | .qpermQ1 => [.res, .resHi]
  | .mdsmix => [.res, .resHi]
  | .rsmix => [.res, .resHi]
  | .gfunc => [.res, .resHi]

/-- Two states agree on what a command reads. -/
def AgreeOnReads (i : Instr) (s s' : State) : Prop :=
  ∀ p ∈ Instr.reads i, readReg s p.1 &&& p.2 = readReg s' p.1 &&& p.2

/-- The key `00 01 .. 0F` of the spec's worked examples (95_test_vectors.md). -/
def exampleKey : Quad := ⟨0x00010203, 0x04050607, 0x08090A0B, 0x0C0D0E0F⟩

/-- Commands run to completion one after another, the host copying DOUT0..3 to DIN0..3 after each
(rules R238, R294). -/
def chain : List Instr → State → Host.Outcome State Fault Refusal
  | [], s => .next s
  | i :: is, s =>
    match exec i s with
    | .next t => chain is { t with din := t.dout }
    | .fault f => .fault f
    | .refused r => .refused r

/-- A command word that needs no key: presented while idle, it is accepted whether KEYVALID is 0 or 1
(rules R86, R100). -/
def AcceptedAlways (c : Word) : Prop :=
  ∀ s : State, s.status.busy = false → memWrite 0x004 c s = accept c s

/-- A command word that needs the key: presented while idle, it is accepted with KEYVALID = 1 and rejected
with `E_NO_KEY` with KEYVALID = 0 (rules R86, R100). -/
def AcceptedWithKey (c : Word) : Prop :=
  ∀ s : State, s.status.busy = false →
    (s.status.keyValid = true → memWrite 0x004 c s = accept c s) ∧
    (s.status.keyValid = false → memWrite 0x004 c s = raise .noKey c s)

/-- Written to CMD while busy, a word is dropped with `E_BUSY` (rule R64 (b)). -/
def DroppedWhileBusy (c : Word) : Prop :=
  ∀ s : State, s.status.busy = true → memWrite 0x004 c s = raise .busy 0x004 s

/-- Every word of an opcode with a forbidden field set is rejected with `E_RESERVED_FIELD`, whatever KEYVALID
is (rule R86). -/
def ReservedFieldError (op : Byte) (forbidden : Word → Prop) : Prop :=
  ∀ (c : Word) (s : State), s.status.busy = false → opcodeOf c = op → forbidden c →
    memWrite 0x004 c s = raise .reservedField c s

end Sys2Proof.Machine
end

