-- ==== Sys2Proof/Certificates/Slice0/Obligations.lean ====
section
/-!
DEFINITION. The statements for the provers, each from the numbered rules of spec/ its docstring names.
-/

open Sys2Proof Sys2Proof.Machine

/-! ### Encoding -/

/-- Rules R80 to R85, R90: the decoder gives back every command from the word the encoder makes of it, with
every round index. -/
def Obligations.DecodeOfEncode : Prop :=
  ∀ i : Instr, i.wellFormed = true → decode (encode i) = .ok i

/-- Rules R84, R87, R90: each word the decoder accepts is the one word of the command it stands for, so no bit of
it is dropped. -/
def Obligations.EncodeOfDecode : Prop :=
  ∀ (c : Word) (i : Instr), decode c = .ok i → i.wellFormed = true ∧ encode i = c

/-- Rule R90: the command word of each mnemonic, and the command the decoder reads from it. -/
def Obligations.EveryMnemonicHasItsWord : Prop :=
  (∀ p ∈ [(Instr.nop, 0x00000000#32), (.keysched, 0x00000001#32), (.encrypt, 0x00000002#32),
      (.decrypt, 0x00000003#32), (.whitenIn, 0x00000006#32), (.whitenOut, 0x00001006#32),
      (.polymul, 0x00000010#32), (.freduceMds, 0x00000011#32), (.freduceRs, 0x00001011#32),
      (.gfmulMds, 0x00000012#32), (.gfmulRs, 0x00001012#32), (.qpermQ0, 0x00000013#32),
      (.qpermQ1, 0x00001013#32), (.mdsmix, 0x00000014#32), (.rsmix, 0x00000015#32),
      (.gfunc, 0x00000016#32)], encode p.1 = p.2 ∧ decode p.2 = .ok p.1) ∧
  (∀ r : Nat, r < 16 →
    encode (.rndenc r) = 0x00000004#32 ||| (BitVec.ofNat 32 r <<< 8) ∧
    decode (0x00000004#32 ||| (BitVec.ofNat 32 r <<< 8)) = .ok (.rndenc r) ∧
    encode (.rnddec r) = 0x00000005#32 ||| (BitVec.ofNat 32 r <<< 8) ∧
    decode (0x00000005#32 ||| (BitVec.ofNat 32 r <<< 8)) = .ok (.rnddec r))

/-- Rules R85, R86: the checks at presentation and the decoder agree. A word passes exactly when it decodes to a
command whose key condition holds, and each of the three errors means what its name says; no other is given. -/
def Obligations.CheckAgreesWithDecoder : Prop :=
  ∀ (c : Word) (kv : Bool),
    (check c kv = none ↔ ∃ i, decode c = .ok i ∧ (i.needsKey = true → kv = true)) ∧
    (check c kv = some .illegalOpcode ↔ decode c = .error .illegalOpcode) ∧
    (check c kv = some .reservedField ↔ decode c = .error .reservedField) ∧
    (check c kv = some .noKey ↔ ∃ i, decode c = .ok i ∧ i.needsKey = true ∧ kv = false) ∧
    check c kv ≠ some .busy ∧ check c kv ≠ some .badAccess

/-- Rule R87: an illegal opcode is rejected with `E_ILLEGAL_OPCODE`, a legal one with a field set that must be
zero with `E_RESERVED_FIELD`, both with no other effect than the record; and no word but `0x00000000` executes
as a no-op. -/
def Obligations.IllegalAndReservedEncodings : Prop :=
  (∀ (c : Word) (s : State), s.status.busy = false →
    (0x07#8 ≤ opcodeOf c ∧ opcodeOf c ≤ 0x0F#8 ∨ 0x17#8 ≤ opcodeOf c) →
    memWrite 0x004 c s = raise .illegalOpcode c s) ∧
  (∀ (c : Word) (s : State), s.status.busy = false →
    (opcodeOf c ≤ 0x06#8 ∨ 0x10#8 ≤ opcodeOf c ∧ opcodeOf c ≤ 0x16#8) →
    (rsvdOf c ≠ 0 ∨ opcodeOf c ∉ [0x04#8, 0x05#8] ∧ ridxOf c ≠ 0 ∨
      opcodeOf c ∉ [0x06#8, 0x11#8, 0x12#8, 0x13#8] ∧ selOf c = true) →
    memWrite 0x004 c s = raise .reservedField c s) ∧
  (∀ (c : Word) (i : Instr), decode c = .ok i → (∀ s : State, exec i s = .next (complete s)) → c = 0)

/-! ### Steps and reset -/

/-- Rules R70, R103, R104: when the engine has the turn and the pending word decodes, a step is the execution of
that command, and so is a step after a word is placed. The list of events and the placing are the model's (log
entries 2, 9). -/
def Obligations.StepRunsThePendingCommand : Prop :=
  (∀ (s : State) (c : Word) (i : Instr), s.pend = some c → decode c = .ok i →
    (s.events = [] → step s = exec i s) ∧
    (∀ es, s.events = .engine :: es → step s = exec i { s with events := es })) ∧
  (∀ (s : State) (i : Instr), i.wellFormed = true →
    step (s.withFetchWord 32 (encode i).toNat) =
      exec i { s with cmd := encode i, pend := some (encode i),
                      status := { s.status with busy := true, done := false } })

/-- Rules R70, R266: a step takes the next event of the run and runs it, and the engine with nothing pending is
idle and keeps all state. The list of events, and that reset keeps it and the replies, are the model's (log entries
2, 3, 10, 11). -/
def Obligations.StepRunsOneEvent : Prop :=
  ∀ (s : State) (es : List Event),
    (∀ a w, s.events = .hostRead a w :: es → step s = busRead a w { s with events := es }) ∧
    (∀ a w v, s.events = .hostWrite a w v :: es → step s = busWrite a w v { s with events := es }) ∧
    (s.events = .reset :: es → step s = .next (applyReset { s with events := es })) ∧
    (s.events = .engine :: es → s.pend = none → step s = .next { s with events := es }) ∧
    (s.events = [] → s.pend = none → step s = .next s)

/-- Rule R280: the reset event sets PEND to none and every register other than ID to 0, from any state;
power-on is the same state, and ID and the reserved offsets read as ever. -/
def Obligations.ResetClearsEveryRegister : Prop :=
  (∀ (s : State) (es : List Event), s.events = .reset :: es →
    ∃ t, step s = .next t ∧ t.pend = none ∧ memRead 0x000 t = 0x54463132#32 ∧
      (∀ off, off ≠ 0x000 → memRead off t = 0)) ∧
  State.reset.pend = none ∧ memRead 0x000 State.reset = 0x54463132#32 ∧
  (∀ off, off ≠ 0x000 → memRead off State.reset = 0)

/-- Rule R281: a command pending at reset is abandoned: none of its results are written, no error is raised, DONE
is not set, and the engine's later turns change nothing (log entry 11). -/
def Obligations.ResetAbandonsThePendingCommand : Prop :=
  ∀ (s : State) (c : Word) (es : List Event), s.events = .reset :: es → s.pend = some c →
    ∃ t, step s = .next t ∧ t.pend = none ∧ t.status.err = false ∧ t.status.done = false ∧
      t.dout = .zero ∧ t.res = 0 ∧ t.resHi = 0 ∧ t.sched = Schedule.reset ∧
      t.status.keyValid = false ∧ engineTurn t = .next t

/-! ### The bus -/

/-- Rules R21, R61: what a read of each offset of the window returns. -/
def Obligations.WindowReadsTheRegisterMap : Prop :=
  ∀ s : State,
    memRead 0x000 s = 0x54463132#32 ∧ memRead 0x004 s = s.cmd ∧ memRead 0x008 s = s.status.toWord ∧
    memRead 0x00C s = s.errInfo ∧
    (∀ j : Fin 4, memRead (0x010 + 4 * j) s = s.key.get j ∧ memRead (0x020 + 4 * j) s = s.din.get j ∧
      memRead (0x030 + 4 * j) s = s.dout.get j) ∧
    memRead 0x040 s = s.opa ∧ memRead 0x044 s = s.opb ∧ memRead 0x048 s = s.opc ∧
    memRead 0x04C s = s.res ∧ memRead 0x050 s = s.resHi ∧
    memRead 0x080 s = s.sched.skey0 ∧ memRead 0x084 s = s.sched.skey1 ∧
    (∀ i : Fin 40, memRead (0x100 + 4 * i) s = s.sched.subkey i) ∧
    (∀ off, 0x054 ≤ off ∧ off ≤ 0x07C ∨ 0x088 ≤ off ∧ off ≤ 0x0FC ∨ 0x1A0 ≤ off ∧ off ≤ 0x1FC →
      memRead off s = 0)

/-- Rule R63: a read of an aligned offset in the window answers the register's value, or 0 at a reserved offset,
and changes no register, whether or not a command is pending. That the value is put at the head of `replies` is the
model's choice (log entry 3). -/
def Obligations.ReadsHaveNoSideEffect : Prop :=
  ∀ (s : State) (off : Nat) (es : List Event), off < 0x200 → off % 4 = 0 →
    s.events = .hostRead (Config.tfBase + off) 4 :: es →
    step s = .next { s with events := es, replies := memRead off s :: s.replies } ∧
    (∀ r : Reg, r.offset = off → memRead off s = readReg s r) ∧
    ((∀ r : Reg, r.offset ≠ off) → memRead off s = 0)

/-- Rule R64: a write of an aligned offset in the window is the first of the five cases that applies. -/
def Obligations.WritesFollowTheFiveCases : Prop :=
  ∀ (s : State) (off : Nat) (v : Word) (es : List Event), off < 0x200 → off % 4 = 0 →
    s.events = .hostWrite (Config.tfBase + off) 4 v :: es →
    ∃ t, step s = .next t ∧
      (off = 0x008 → t = writeStatus v { s with events := es }) ∧
      (off ≠ 0x008 → s.status.busy = true → t = raise .busy (BitVec.ofNat 32 off) { s with events := es }) ∧
      (off = 0x004 → s.status.busy = false → t = present v { s with events := es }) ∧
      (∀ r : Reg, r.offset = off → r.isRW = true → s.status.busy = false →
        readReg t r = v ∧ (∀ r' : Reg, r' ≠ r → readReg t r' = readReg s r') ∧
        t.status = s.status ∧ t.pend = s.pend ∧ t.events = es ∧ t.replies = s.replies) ∧
      (off ≠ 0x008 → off ≠ 0x004 → (∀ r : Reg, r.offset = off → r.isRW = false) →
        s.status.busy = false → t = raise .badAccess (BitVec.ofNat 32 off) { s with events := es })

/-- Rules R60, R61, R62 (log entries 1, 4, 5): an access of another width or alignment, and one outside the window,
below it or above it, has no step. -/
def Obligations.OtherAccessesAreRefused : Prop :=
  ∀ (s : State) (width : Nat) (v : Word) (es : List Event),
    (∀ off, off < 0x200 → (width ≠ 4 ∨ off % 4 ≠ 0) →
      (s.events = .hostRead (Config.tfBase + off) width :: es → step s = .refused .misalignedAccess) ∧
      (s.events = .hostWrite (Config.tfBase + off) width v :: es → step s = .refused .misalignedAccess)) ∧
    (∀ addr, addr < Config.tfBase ∨ Config.tfBase + 0x200 ≤ addr →
      (s.events = .hostRead addr width :: es → step s = .refused .outsideWindow) ∧
      (s.events = .hostWrite addr width v :: es → step s = .refused .outsideWindow))

/-- Rule R24: the fields of STATUS in the word a read returns, their reset values, and the write-1-to-clear update
of a host write, which applies whether or not BUSY is 1, changes nothing else and raises nothing; reading has no
side effect; acceptance and completion move BUSY and DONE, and KEYSCHED's completion sets KEYVALID. -/
def Obligations.StatusRegister : Prop :=
  ∀ (s : State) (v : Word),
    ((memRead 0x008 s).getLsbD 0 = s.status.busy ∧ (memRead 0x008 s).getLsbD 1 = s.status.done ∧
      (memRead 0x008 s).getLsbD 2 = s.status.keyValid ∧ (memRead 0x008 s).getLsbD 3 = s.status.err ∧
      (memRead 0x008 s).getLsbD 4 = s.status.eovf ∧ (memRead 0x008 s).extractLsb' 5 3 = 0 ∧
      (memRead 0x008 s).extractLsb' 8 4 = s.status.errCode ∧ (memRead 0x008 s).extractLsb' 12 20 = 0) ∧
    memRead 0x008 State.reset = 0 ∧
    memWrite 0x008 v s =
      { s with
        status :=
          { s.status with
            done := if v.getLsbD 1 then false else s.status.done
            eovf := if v.getLsbD 4 then false else s.status.eovf
            err := if v.getLsbD 3 then false else s.status.err
            errCode := if v.getLsbD 3 then 0 else s.status.errCode }
        errInfo := if v.getLsbD 3 then 0 else s.errInfo } ∧
    readAt 0x008 4 s = .next { s with replies := memRead 0x008 s :: s.replies } ∧
    (∀ c, (accept c s).status = { s.status with busy := true, done := false }) ∧
    (∀ i, ∃ t, exec i s = .next t ∧
      t.status = { s.status with
        busy := false, done := true, keyValid := if i = .keysched then true else s.status.keyValid }) ∧
    (EngineInv s → (s.status.busy = true ↔ s.pend ≠ none) ∧ (s.status.err = false → s.status.errCode = 0))

/-- Rule R256: while not busy, a write to a read-only register or a reserved offset is dropped with
`E_BAD_ACCESS`, whose info is the offset. -/
def Obligations.ReadOnlyWritesAreBadAccess : Prop :=
  ∀ (s : State) (off : Nat) (v : Word), s.status.busy = false → off % 4 = 0 →
    (off = 0x000 ∨ off = 0x00C ∨ 0x030 ≤ off ∧ off ≤ 0x03C ∨ off = 0x04C ∨ off = 0x050 ∨
      0x054 ≤ off ∧ off ≤ 0x07C ∨ off = 0x080 ∨ off = 0x084 ∨ 0x088 ≤ off ∧ off ≤ 0x0FC ∨
      0x100 ≤ off ∧ off ≤ 0x19C ∨ 0x1A0 ≤ off ∧ off ≤ 0x1FC) →
    memWrite off v s = raise .badAccess (BitVec.ofNat 32 off) s

/-! ### Errors -/

/-- Rules R251, R252: what recording an error writes, with its code; the first error wins. -/
def Obligations.FirstErrorIsRecorded : Prop :=
  ErrCode.illegalOpcode.code = 1 ∧ ErrCode.reservedField.code = 2 ∧ ErrCode.noKey.code = 3 ∧
  ErrCode.busy.code = 4 ∧ ErrCode.badAccess.code = 5 ∧
  ∀ (e : ErrCode) (info : Word) (s : State),
    (s.status.err = false →
      raise e info s =
        { s with status := { s.status with err := true, errCode := e.code }, errInfo := info }) ∧
    (s.status.err = true → raise e info s = { s with status := { s.status with eovf := true } })

/-- Rule R253: a rejected command and a dropped write leave everything but the error record as it was, and a
command that is pending completes as if the write had not happened. -/
def Obligations.ErrorsArePrecise : Prop :=
  (∀ (s : State) (off : Nat) (v : Word), off ≠ 0x008 →
    (s.status.busy = true ∨ off = 0x004 ∧ check v s.status.keyValid ≠ none ∨
      off ≠ 0x004 ∧ ∀ r : Reg, r.offset = off → r.isRW = false) →
    (∃ e info, memWrite off v s = raise e info s) ∧
    (∀ r : Reg, r ≠ .status → r ≠ .errInfo → readReg (memWrite off v s) r = readReg s r) ∧
    (memWrite off v s).pend = s.pend ∧ (memWrite off v s).status.busy = s.status.busy ∧
    (memWrite off v s).status.done = s.status.done ∧
    (memWrite off v s).status.keyValid = s.status.keyValid) ∧
  (∀ (s : State) (e : ErrCode) (info : Word) (i : Instr),
    ∃ t, exec i s = .next t ∧ exec i (raise e info s) = .next (raise e info t))

/-! ### The life of a command -/

/-- Rules R100, R101: a presented word that passes the checks is accepted in the same step, whatever the error
fields hold, and a word that fails them is rejected with its error and changes nothing else. A write to CMD while
BUSY = 1 is dropped with `E_BUSY`. -/
def Obligations.PresentationAcceptsOrRejects : Prop :=
  ∀ (s : State) (c : Word),
    (s.status.busy = false → check c s.status.keyValid = none →
      memWrite 0x004 c s =
        { s with cmd := c, pend := some c, status := { s.status with busy := true, done := false } }) ∧
    (∀ e, s.status.busy = false → check c s.status.keyValid = some e → memWrite 0x004 c s = raise e c s) ∧
    (s.status.busy = true → memWrite 0x004 c s = raise .busy 0x004 s)

/-- Rules R27, R103: when a legal command is pending the engine's turn completes it: it never raises an error, and
it changes BUSY, DONE and PEND as stated beside the command's own results. -/
def Obligations.CompletionNeverFails : Prop :=
  ∀ (s : State) (c : Word), s.pend = some c → check c s.status.keyValid = none →
    ∃ i t, decode c = .ok i ∧ engineTurn s = .next t ∧ exec i s = .next t ∧
      t.status.busy = false ∧ t.status.done = true ∧ t.pend = none ∧
      t.status.err = s.status.err ∧ t.status.eovf = s.status.eovf ∧
      t.status.errCode = s.status.errCode ∧ t.errInfo = s.errInfo ∧ t.cmd = s.cmd ∧ t.key = s.key ∧
      t.din = s.din ∧ t.opa = s.opa ∧ t.opb = s.opb ∧ t.opc = s.opc ∧ t.events = s.events ∧
      t.replies = s.replies

/-- Rules R102, R300 (b): an accepted command completes after finitely many further events, however the host's
accesses are placed, as long as no reset intervenes (log entry 2). -/
def Obligations.AcceptedCommandCompletes : Prop :=
  ∀ (s : State) (c : Word), Safe s → s.pend = some c → (∀ e ∈ s.events, e ≠ .reset) →
    ∃ n t, n ≤ s.events.length + 1 ∧ Sys2Proof.core.run n s = .next t ∧ t.pend = none ∧
      t.status.busy = false ∧ t.status.done = true

/-- Rules R67, R73, R290: while a command is pending no host access changes it, its operands or any result, so the
operands it reads at completion are those present at acceptance. -/
def Obligations.OperandsAreFrozenWhilePending : Prop :=
  ∀ (es rest : List Event) (s : State), Safe s → s.status.busy = true → s.events = es ++ rest →
    (∀ e ∈ es, (∃ a w, e = .hostRead a w) ∨ (∃ a w v, e = .hostWrite a w v)) →
    ∃ t, Sys2Proof.core.run es.length s = .next t ∧ t.events = rest ∧ t.pend = s.pend ∧ t.cmd = s.cmd ∧
      t.status.busy = true ∧ t.status.keyValid = s.status.keyValid ∧ t.key = s.key ∧ t.din = s.din ∧
      t.opa = s.opa ∧ t.opb = s.opb ∧ t.opc = s.opc ∧ t.sched = s.sched ∧ t.dout = s.dout ∧
      t.res = s.res ∧ t.resHi = s.resHi

/-- Rules R64 (b), R102 (Program 4 of 95_test_vectors.md, for every pending command and value): a write to DIN0
that races with completion lands when completion comes first, and is dropped with `E_BUSY` when it does not; the
command's results are the same. -/
def Obligations.WriteRacesWithCompletion : Prop :=
  ∀ (s : State) (c v : Word), EngineInv s → s.pend = some c → s.status.err = false → s.events = [] →
    ∃ t u,
      Sys2Proof.core.run 2 { s with events := [.engine, .hostWrite (Config.tfBase + 0x020) 4 v] } = .next t ∧
      Sys2Proof.core.run 2 { s with events := [.hostWrite (Config.tfBase + 0x020) 4 v, .engine] } = .next u ∧
      t.din = { s.din with w0 := v } ∧ t.status.err = false ∧
      u.din = s.din ∧ u.status.err = true ∧ u.status.errCode = 4 ∧ u.errInfo = 0x020 ∧
      t.dout = u.dout ∧ t.res = u.res ∧ t.resHi = u.resHi ∧ t.sched = u.sched ∧
      t.status.keyValid = u.status.keyValid ∧ t.pend = none ∧ u.pend = none

/-- Rules R71, R301: the number of STATUS reads that find BUSY = 1 before one finds BUSY = 0 is any number, and the
read after completion finds BUSY = 0 and DONE = 1. -/
def Obligations.AnyNumberOfBusyPolls : Prop :=
  ∀ (n : Nat) (s : State) (c : Word), EngineInv s → s.pend = some c → s.replies = [] →
    s.events = List.replicate n (.hostRead (Config.tfBase + 0x008) 4)
      ++ [.engine, .hostRead (Config.tfBase + 0x008) 4] →
    ∃ t w ws, Sys2Proof.core.run (n + 2) s = .next t ∧ t.replies = w :: ws ∧ ws.length = n ∧
      w.getLsbD 0 = false ∧ w.getLsbD 1 = true ∧ ∀ x ∈ ws, x.getLsbD 0 = true

/-! ### Invariants and rules of the whole machine -/

/-- The invariant of rules R23, R24, R25, R33, R34, R35 and R251 holds after reset. -/
def Obligations.ResetMeetsTheInvariant : Prop := EngineInv State.reset

/-- The invariant of rules R23, R24, R25, R33, R34, R35 and R251 is kept by every step: PEND, BUSY, CMD and DONE
agree, a pending word is legal, the error record is 0 or one of the five codes, and the schedule is 0 or that of
some key. -/
def Obligations.StepKeepsTheInvariant : Prop :=
  ∀ s t : State, EngineInv s → step s = .next t → EngineInv t

/-- Rules R250, R255 and 93_implementation_defined.md section 1 (nothing is stuck): a safe state always has a next
state, and it is safe again. -/
def Obligations.SafeRunsNeverStop : Prop :=
  ∀ s : State, Safe s → ∃ t, step s = .next t ∧ Safe t

/-- Rule R34: KEYVALID is 0 after reset, only KEYSCHED's completion sets it and only reset clears it; while it is 0
the commands that read the schedule are rejected with `E_NO_KEY`, and the schedule reads 0. -/
def Obligations.KeyValidRule : Prop :=
  State.reset.status.keyValid = false ∧
  (∀ s : State, ∃ t, exec .keysched s = .next t ∧ t.status.keyValid = true) ∧
  (∀ s t : State, step s = .next t → t.status.keyValid ≠ s.status.keyValid →
    s.events.head? = some .reset ∧ t.status.keyValid = false ∨
    (s.events = [] ∨ s.events.head? = some .engine) ∧ s.pend = some (encode .keysched) ∧
      t.status.keyValid = true ∧ t.pend = none) ∧
  (∀ (s : State) (i : Instr), i.wellFormed = true →
    i ∈ [.encrypt, .decrypt, .whitenIn, .whitenOut] ∨ (∃ r, i = .rndenc r ∨ i = .rnddec r) →
    s.status.busy = false → s.status.keyValid = false →
    memWrite 0x004 (encode i) s = raise .noKey (encode i) s) ∧
  (∀ s : State, EngineInv s → s.status.keyValid = false →
    memRead 0x080 s = 0 ∧ memRead 0x084 s = 0 ∧ ∀ i : Fin 40, memRead (0x100 + 4 * i) s = 0)

/-- Rules R32, R33, R292: a step changes the schedule registers only by reset or by the completion of KEYSCHED,
which writes the schedule of the key then held. -/
def Obligations.OnlyKeyschedWritesTheSchedule : Prop :=
  ∀ s t : State, step s = .next t → t.sched ≠ s.sched →
    s.events.head? = some .reset ∨
    (s.events = [] ∨ s.events.head? = some .engine) ∧ s.pend = some (encode .keysched) ∧
      t.sched = keySchedule tables s.key

/-- Rules R26, R28, R30, R64: a step changes the key, the input block or an operand only by reset or by a host
write made while not busy. -/
def Obligations.OnlyTheHostWritesOperands : Prop :=
  ∀ s t : State, step s = .next t →
    t.key = s.key ∧ t.din = s.din ∧ t.opa = s.opa ∧ t.opb = s.opb ∧ t.opc = s.opc ∨
    s.events.head? = some .reset ∨
    s.status.busy = false ∧ ∃ addr v, s.events.head? = some (.hostWrite addr 4 v)

/-- Rules R27, R29, R31: a step changes the output block or a result word only by reset or by a completion, which
sets DONE and clears BUSY and PEND in the same step. -/
def Obligations.OnlyCompletionWritesResults : Prop :=
  ∀ s t : State, step s = .next t →
    t.dout = s.dout ∧ t.res = s.res ∧ t.resHi = s.resHi ∨
    s.events.head? = some .reset ∨
    s.pend ≠ none ∧ t.pend = none ∧ t.status.busy = false ∧ t.status.done = true

/-- Rule R41: a completion depends only on the registers, and the bits of them, in its row of the matrix; it
changes only the registers in its row, and in STATUS only BUSY, DONE and, for KEYSCHED, KEYVALID. Acceptance reads
the word and KEYVALID and writes CMD, BUSY, DONE and PEND. -/
def Obligations.ReadWriteMatrix : Prop :=
  (∀ (i : Instr) (s s' : State), i.wellFormed = true → AgreeOnReads i s s' →
    ∃ t t', exec i s = .next t ∧ exec i s' = .next t' ∧
      (∀ r ∈ Instr.writes i, readReg t r = readReg t' r) ∧
      (∀ r : Reg, r ∉ Instr.writes i → r ≠ .status → readReg t r = readReg s r) ∧
      t.status = { s.status with
        busy := false, done := true, keyValid := if i = .keysched then true else s.status.keyValid } ∧
      t.events = s.events ∧ t.replies = s.replies) ∧
  (∀ (s : State) (c : Word), check c s.status.keyValid = none →
    present c s =
      { s with cmd := c, pend := some c, status := { s.status with busy := true, done := false } })

/-! ### Field arithmetic -/

/-- Rule R120: the product is that of polynomials over GF(2), coefficient by coefficient; it is commutative, 0
and 1 act as they should, and it distributes over XOR. -/
def Obligations.PolyMulIsThePolynomialProduct : Prop :=
  (∀ (a b : Word) (k : Nat), k < 64 →
    (polyMul a b).getLsbD k =
      ((List.range 32).countP (fun i => a.getLsbD i && decide (i ≤ k) && b.getLsbD (k - i)) % 2 == 1)) ∧
  (∀ a b : Word, polyMul a b = polyMul b a) ∧ (∀ a : Word, polyMul a 0 = 0) ∧
  (∀ a : Word, polyMul a 1 = a.setWidth 64) ∧
  (∀ a b c : Word, polyMul a (b ^^^ c) = polyMul a b ^^^ polyMul a c) ∧
  (polyMul 0xFFFFFFFF 0xFFFFFFFF).getLsbD 63 = false

/-- Rule R123: iteration i of the reduction clears bit 15-i and leaves the bits above it; a value below 2^16 is
reduced to its remainder by the modulus; bits 63..16 are never changed; a value below 0x100 is its own result. -/
def Obligations.FieldReduceIsTheRemainder : Prop :=
  ∀ m : Word, Modulus.Valid m →
    (∀ (t : DWord) (i : Nat), i < 8 →
      (reduceStep (t, m.setWidth 64 <<< (7 - i)) i).1.getLsbD (15 - i) = false ∧
      ∀ k, 15 - i < k →
        (reduceStep (t, m.setWidth 64 <<< (7 - i)) i).1.getLsbD k = t.getLsbD k) ∧
    (∀ t : DWord, t < 0x10000#64 →
      fieldReduce t m < 0x100#64 ∧ ∃ d : Word, t = polyMul d m ^^^ fieldReduce t m) ∧
    (∀ t : DWord, fieldReduce t m = (t &&& ~~~ 0xFFFF#64) ||| fieldReduce (t &&& 0xFFFF#64) m) ∧
    (∀ t : DWord, t < 0x100#64 → fieldReduce t m = t)

/-- Rule R124: for bytes and a valid modulus, `fieldMul` is the whole of `fieldReduce(polyMul(a, b))`, the product
in the field of the modulus, and it is commutative. The two moduli of TF128 are the values the spec supplies
(log entry 7), and they are not interchangeable. -/
def Obligations.FieldMulIsTheFieldProduct : Prop :=
  (∀ (a b : Byte) (m : Word), Modulus.Valid m →
    fieldReduce (polyMul (a.setWidth 32) (b.setWidth 32)) m = (fieldMul a b m).setWidth 64 ∧
    (∃ d : Word, polyMul (a.setWidth 32) (b.setWidth 32) = polyMul d m ^^^ (fieldMul a b m).setWidth 64) ∧
    fieldMul a b m = fieldMul b a m) ∧
  Tables.Valid tables ∧ tables.mdsMod = 0x169#32 ∧ tables.rsMod = 0x14D#32 ∧
  fieldMul 0x02 0x80 tables.mdsMod ≠ fieldMul 0x02 0x80 tables.rsMod

/-- Rule R125, whole: `tf.polymul`. -/
def Obligations.PolymulCommand : Prop :=
  encode .polymul = 0x00000010#32 ∧ decode 0x00000010#32 = .ok .polymul ∧
  (∀ s : State, exec .polymul s =
    .next { s with
      res := (polyMul s.opa s.opb).extractLsb' 0 32
      resHi := (polyMul s.opa s.opb).extractLsb' 32 32
      pend := none
      status := { s.status with busy := false, done := true } }) ∧
  ReservedFieldError 0x10#8 (fun c => c.extractLsb' 8 24 ≠ 0) ∧ DroppedWhileBusy 0x00000010#32 ∧
  AcceptedAlways 0x00000010#32 ∧
  (∀ a : Word, polyMul a 0 = 0 ∧ polyMul 0 a = 0) ∧ (∀ a b : Word, (polyMul a b).getLsbD 63 = false) ∧
  polyMul 0xFFFFFFFF#32 0xFFFFFFFF#32 = 0x5555555555555555#64 ∧
  polyMul 0x80000000#32 0x80000000#32 = 0x4000000000000000#64 ∧
  polyMul 0x12345678#32 0x9ABCDEF0#32 = 0x08860E945CD25A80#64

/-- Rule R126, whole: `tf.freduce.mds` and `tf.freduce.rs`. -/
def Obligations.FreduceCommands : Prop :=
  encode .freduceMds = 0x00000011#32 ∧ encode .freduceRs = 0x00001011#32 ∧
  decode 0x00000011#32 = .ok .freduceMds ∧ decode 0x00001011#32 = .ok .freduceRs ∧
  (∀ s : State,
    exec .freduceMds s =
      .next { s with
        res := (fieldReduce (s.opa.setWidth 64) tables.mdsMod).setWidth 32
        resHi := 0
        pend := none
        status := { s.status with busy := false, done := true } } ∧
    exec .freduceRs s =
      .next { s with
        res := (fieldReduce (s.opa.setWidth 64) tables.rsMod).setWidth 32
        resHi := 0
        pend := none
        status := { s.status with busy := false, done := true } }) ∧
  ReservedFieldError 0x11#8 (fun c => ridxOf c ≠ 0 ∨ rsvdOf c ≠ 0) ∧
  AcceptedAlways 0x00000011#32 ∧ AcceptedAlways 0x00001011#32 ∧
  (∀ m ∈ [tables.mdsMod, tables.rsMod], ∀ a : Word,
    (a < 0x100#32 → (fieldReduce (a.setWidth 64) m).setWidth 32 = a) ∧
    ((fieldReduce (a.setWidth 64) m).setWidth 32).extractLsb' 16 16 = a.extractLsb' 16 16) ∧
  (∀ p ∈ [(0x100#64, 0x69#64, 0x4D#64), (0x12345678#64, 0x12340006#64, 0x1234000C#64),
      (0x00007FFF#64, 0x0000006C#64, 0x0000002B#64)],
    fieldReduce p.1 tables.mdsMod = p.2.1 ∧ fieldReduce p.1 tables.rsMod = p.2.2)

/-- Rule R127, whole: `tf.gfmul.mds` and `tf.gfmul.rs`. -/
def Obligations.GfmulCommands : Prop :=
  encode .gfmulMds = 0x00000012#32 ∧ encode .gfmulRs = 0x00001012#32 ∧
  decode 0x00000012#32 = .ok .gfmulMds ∧ decode 0x00001012#32 = .ok .gfmulRs ∧
  (∀ s : State,
    exec .gfmulMds s =
      .next { s with
        res := (fieldMul (s.opa.extractLsb' 0 8) (s.opb.extractLsb' 0 8) tables.mdsMod).setWidth 32
        resHi := 0
        pend := none
        status := { s.status with busy := false, done := true } } ∧
    exec .gfmulRs s =
      .next { s with
        res := (fieldMul (s.opa.extractLsb' 0 8) (s.opb.extractLsb' 0 8) tables.rsMod).setWidth 32
        resHi := 0
        pend := none
        status := { s.status with busy := false, done := true } }) ∧
  ReservedFieldError 0x12#8 (fun c => ridxOf c ≠ 0 ∨ rsvdOf c ≠ 0) ∧
  AcceptedAlways 0x00000012#32 ∧ AcceptedAlways 0x00001012#32 ∧
  (∀ m ∈ [tables.mdsMod, tables.rsMod], ∀ a b : Byte,
    fieldMul 0 b m = 0 ∧ fieldMul a 0 m = 0 ∧ fieldMul 1 b m = b ∧ fieldMul a b m = fieldMul b a m ∧
    ((fieldMul a b m).setWidth 32).extractLsb' 8 24 = 0#24) ∧
  (∀ a b : Byte, 0x100#64 ≤ polyMul (a.setWidth 32) (b.setWidth 32) →
    fieldMul a b tables.mdsMod ≠ fieldMul a b tables.rsMod) ∧
  fieldMul 0x02 0x80 tables.mdsMod = 0x69 ∧ fieldMul 0x02 0x80 tables.rsMod = 0x4D ∧
  fieldMul 0xEF 0x02 tables.mdsMod = 0xB7 ∧ fieldMul 0xEF 0x02 tables.rsMod = 0x93

/-! ### Q networks, mixing and G -/

/-- Rule R142: with tables that are permutations a Q network is a bijection on bytes, and its mixing stage a
bijection on pairs of nibbles. -/
def Obligations.QNetworksAreBijections : Prop :=
  Function.Bijective (fun p : Nibble × Nibble => qStage p.1 p.2) ∧
  (∀ t : QTables, t.Valid → Function.Bijective (qNetwork t)) ∧
  Function.Bijective (q tables .q0) ∧ Function.Bijective (q tables .q1)

/-- Rule R144, whole: `tf.qperm.q0` and `tf.qperm.q1`. -/
def Obligations.QpermCommands : Prop :=
  encode .qpermQ0 = 0x00000013#32 ∧ encode .qpermQ1 = 0x00001013#32 ∧
  decode 0x00000013#32 = .ok .qpermQ0 ∧ decode 0x00001013#32 = .ok .qpermQ1 ∧
  (∀ s : State,
    exec .qpermQ0 s =
      .next { s with
        res := (q tables .q0 (s.opa.extractLsb' 0 8)).setWidth 32
        resHi := 0
        pend := none
        status := { s.status with busy := false, done := true } } ∧
    exec .qpermQ1 s =
      .next { s with
        res := (q tables .q1 (s.opa.extractLsb' 0 8)).setWidth 32
        resHi := 0
        pend := none
        status := { s.status with busy := false, done := true } }) ∧
  ReservedFieldError 0x13#8 (fun c => ridxOf c ≠ 0 ∨ rsvdOf c ≠ 0) ∧
  AcceptedAlways 0x00000013#32 ∧ AcceptedAlways 0x00001013#32 ∧
  (∀ (v : QVariant) (x : Byte), ((q tables v x).setWidth 32).extractLsb' 8 24 = 0#24) ∧
  q tables .q0 0x00 = 0xA9 ∧ q tables .q1 0x00 = 0x75 ∧ q tables .q0 0xFF = 0xE0 ∧
  q tables .q1 0xFF = 0x91 ∧ q tables .q0 ((0x100#32).extractLsb' 0 8) = q tables .q0 0x00 ∧
  q tables .q1 ((0x100#32).extractLsb' 0 8) = q tables .q1 0x00 ∧
  qStage 0 1 = (1, 8) ∧ qLookup tables.q0.t0 1 = 1 ∧ qLookup tables.q0.t1 8 = 0xF ∧
  qStage 1 0xF = (0xE, 6) ∧ qLookup tables.q0.t2 0xE = 7 ∧ qLookup tables.q0.t3 6 = 6 ∧
  q tables .q0 0x01 = 0x67 ∧ q tables .q1 0x80 = 0x66

/-- Rules R162, R166: MDS and RS mixing are linear over XOR, map 0 to 0, and map each unit column to the matrix
column, for every choice of the tables; the two example values are the spec's. -/
def Obligations.MixingIsLinear : Prop :=
  (∀ (T : Tables) (x y : Vector Byte 4),
    mdsMix T (Vector.zipWith (· ^^^ ·) x y) = mdsMix T x ^^^ mdsMix T y) ∧
  (∀ T : Tables, mdsMix T (Vector.replicate 4 0) = 0) ∧
  (∀ (T : Tables) (k : Fin 4),
    mdsMix T ((Vector.replicate 4 0).set k 1) =
      word T.mdsMatrix[3][k] T.mdsMatrix[2][k] T.mdsMatrix[1][k] T.mdsMatrix[0][k]) ∧
  mdsMix tables #v[1, 0, 0, 0] = 0xEFEF5B01#32 ∧
  (∀ (T : Tables) (x y : Vector Byte 8),
    rsMix T (Vector.zipWith (· ^^^ ·) x y) = rsMix T x ^^^ rsMix T y) ∧
  (∀ T : Tables, rsMix T (Vector.replicate 8 0) = 0) ∧
  (∀ (T : Tables) (k : Fin 8),
    rsMix T ((Vector.replicate 8 0).set k 1) =
      word T.rsMatrix[3][k] T.rsMatrix[2][k] T.rsMatrix[1][k] T.rsMatrix[0][k]) ∧
  rsMix tables #v[1, 0, 0, 0, 0, 0, 0, 0] = 0xA402A401#32

/-- Rule R167, whole: `tf.mdsmix`. -/
def Obligations.MdsmixCommand : Prop :=
  encode .mdsmix = 0x00000014#32 ∧ decode 0x00000014#32 = .ok .mdsmix ∧
  (∀ s : State, exec .mdsmix s =
    .next { s with
      res := mdsMix tables #v[s.opa.extractLsb' 0 8, s.opa.extractLsb' 8 8, s.opa.extractLsb' 16 8,
        s.opa.extractLsb' 24 8]
      resHi := 0
      pend := none
      status := { s.status with busy := false, done := true } }) ∧
  ReservedFieldError 0x14#8 (fun c => c.extractLsb' 8 24 ≠ 0) ∧ AcceptedAlways 0x00000014#32 ∧
  (∀ p ∈ [(0x00000000#32, 0x00000000#32), (0x00000001#32, 0xEFEF5B01#32), (0x00000100#32, 0x015BEFEF#32),
      (0x00010000#32, 0xEF01EF5B#32), (0x01000000#32, 0x5BEF015B#32), (0xFFFFFFFF#32, 0xD1D1D11A#32),
      (0x12345678#32, 0x8D328B3F#32)], mdsMix tables (mdsColumn p.1) = p.2)

/-- Rule R168, whole: `tf.rsmix`. -/
def Obligations.RsmixCommand : Prop :=
  encode .rsmix = 0x00000015#32 ∧ decode 0x00000015#32 = .ok .rsmix ∧
  (∀ s : State, exec .rsmix s =
    .next { s with
      res := rsMix tables #v[s.opa.extractLsb' 24 8, s.opa.extractLsb' 16 8, s.opa.extractLsb' 8 8,
        s.opa.extractLsb' 0 8, s.opb.extractLsb' 24 8, s.opb.extractLsb' 16 8, s.opb.extractLsb' 8 8,
        s.opb.extractLsb' 0 8]
      resHi := 0
      pend := none
      status := { s.status with busy := false, done := true } }) ∧
  (∀ (key : Quad) (n : Fin 8), (rsColumn key.w0 key.w1)[n] = quadByte key ⟨n, by omega⟩ ∧
    (rsColumn key.w2 key.w3)[n] = quadByte key ⟨8 + n, by omega⟩) ∧
  ReservedFieldError 0x15#8 (fun c => c.extractLsb' 8 24 ≠ 0) ∧ AcceptedAlways 0x00000015#32 ∧
  (∀ p ∈ [(0x00000000#32, 0x00000000#32, 0x00000000#32), (0x01000000#32, 0x00000000#32, 0xA402A401#32),
      (0x00000000#32, 0x00000001#32, 0x0319E59E#32), (0xFFFFFFFF#32, 0xFFFFFFFF#32, 0x0ACA4AB9#32),
      (0x00010203#32, 0x04050607#32, 0x2F062AD7#32)], rsMix tables (rsColumn p.1 p.2.1) = p.2.2) ∧
  sboxKey0 tables exampleKey = 0x2F062AD7#32

/-- Rule R181: the pattern of G in words, lane by lane, and the MDS column each lane feeds, for every choice of the
tables. -/
def Obligations.GFunctionInWords : Prop :=
  ∀ (T : Tables) (x s0 s1 : Word),
    gByte T x s0 s1 0 = q T .q1 (q T .q0 (q T .q0 (byte x 0) ^^^ byte s0 0) ^^^ byte s1 0) ∧
    gByte T x s0 s1 1 = q T .q0 (q T .q0 (q T .q1 (byte x 1) ^^^ byte s0 1) ^^^ byte s1 1) ∧
    gByte T x s0 s1 2 = q T .q1 (q T .q1 (q T .q0 (byte x 2) ^^^ byte s0 2) ^^^ byte s1 2) ∧
    gByte T x s0 s1 3 = q T .q0 (q T .q1 (q T .q1 (byte x 3) ^^^ byte s0 3) ^^^ byte s1 3) ∧
    gFunction T x s0 s1 = mdsMix T (Vector.ofFn fun k : Fin 4 => gByte T x s0 s1 (k + 1))

/-- Rule R184, whole: `tf.gfunc`. -/
def Obligations.GfuncCommand : Prop :=
  encode .gfunc = 0x00000016#32 ∧ decode 0x00000016#32 = .ok .gfunc ∧
  (∀ s : State, exec .gfunc s =
    .next { s with
      res := gFunction tables s.opa s.opb s.opc
      resHi := 0
      pend := none
      status := { s.status with busy := false, done := true } }) ∧
  ReservedFieldError 0x16#8 (fun c => c.extractLsb' 8 24 ≠ 0) ∧ AcceptedAlways 0x00000016#32 ∧
  (∀ (x s0 s1 s0' s1' : Word) (j : Fin 4), byte s0 j = byte s0' j → byte s1 j = byte s1' j →
    gByte tables x s0 s1 j = gByte tables x s0' s1' j) ∧
  (List.finRange 4).map (gByte tables 0 0 0) = [0xB3, 0x1F, 0x5B, 0xA5] ∧
  gFunction tables 0 0 0 = 0x57D74F82#32 ∧
  (List.finRange 4).map (gByte tables 1 0 0) = [0x98, 0x1F, 0x5B, 0xA5] ∧
  gFunction tables 1 0 0 = 0x98B9644D#32 ∧ gFunction tables 0xFFFFFFFF 0 0 = 0xB6202937#32 ∧
  (List.finRange 4).map (gByte tables 0x12345678 0x9ABCDEF0 0x0F1E2D3C) = [0x44, 0xF6, 0x6F, 0xCB] ∧
  gFunction tables 0x12345678 0x9ABCDEF0 0x0F1E2D3C = 0xF822E4AD#32

/-! ### The key schedule -/

/-- Rules R12, R26, R28, R65: the big-endian packing of a 16-byte key or block into four words, and the bytes read
back from four words; the two undo each other. -/
def Obligations.BytePackingRoundTrip : Prop :=
  (∀ (m : Vector Byte 16) (i : Fin 4),
    (packQuad m).get i =
      word m[4 * i.val] m[4 * i.val + 1] m[4 * i.val + 2] m[4 * i.val + 3] ∧
    ((packQuad m).get i).extractLsb' 24 8 = m[4 * i.val] ∧
    ((packQuad m).get i).extractLsb' 0 8 = m[4 * i.val + 3]) ∧
  (∀ (m : Vector Byte 16) (n : Fin 16), quadByte (packQuad m) n = m[n]) ∧
  (∀ x : Quad, packQuad (Vector.ofFn (quadByte x)) = x) ∧
  (∀ b0 b1 b2 b3 : Byte, byte (word b0 b1 b2 b3) 3 = b0)

/-- Rule R194: the forty round subkeys, for every choice of the tables and every key, with Me = (KEY2, KEY0) and
Mo = (KEY3, KEY1). -/
def Obligations.RoundSubkeysOfTheSchedule : Prop :=
  ∀ (T : Tables) (key : Quad) (i : Fin 20),
    let a := gFunction T (2 * BitVec.ofNat 32 i * 0x01010101#32) key.w2 key.w0
    let b := (gFunction T (2 * BitVec.ofNat 32 i * 0x01010101#32 + 0x01010101#32) key.w3 key.w1).rotateLeft 8
    (keySchedule T key).subkey ⟨2 * i, by omega⟩ = a + b ∧
    (keySchedule T key).subkey ⟨2 * i + 1, by omega⟩ = (a + 2 * b).rotateLeft 9

/-- Rules R193, R195: the even and odd key words, from the bytes of the key, are the KEY registers themselves, and
the inputs of G in the key schedule are words of four equal bytes. -/
def Obligations.InputsOfTheKeySchedule : Prop :=
  (∀ key : Quad,
    word (quadByte key 8) (quadByte key 9) (quadByte key 10) (quadByte key 11) = key.w2 ∧
    word (quadByte key 0) (quadByte key 1) (quadByte key 2) (quadByte key 3) = key.w0 ∧
    word (quadByte key 12) (quadByte key 13) (quadByte key 14) (quadByte key 15) = key.w3 ∧
    word (quadByte key 4) (quadByte key 5) (quadByte key 6) (quadByte key 7) = key.w1) ∧
  (∀ (i : Fin 20) (j : Fin 4),
    byte (2 * BitVec.ofNat 32 i * rho) j = BitVec.ofNat 8 (2 * i) ∧
    byte (2 * BitVec.ofNat 32 i * rho + rho) j = BitVec.ofNat 8 (2 * i + 1))

/-- Rule R196, whole: `tf.keysched`. -/
def Obligations.KeyschedCommand : Prop :=
  encode .keysched = 0x00000001#32 ∧ decode 0x00000001#32 = .ok .keysched ∧
  (∀ s : State, exec .keysched s =
    .next { s with
      sched := keySchedule tables s.key
      pend := none
      status := { s.status with busy := false, done := true, keyValid := true } }) ∧
  (∀ key : Quad,
    (keySchedule tables key).skey0 = rsMix tables (Vector.ofFn fun n : Fin 8 => quadByte key ⟨n, by omega⟩) ∧
    (keySchedule tables key).skey1 =
      rsMix tables (Vector.ofFn fun n : Fin 8 => quadByte key ⟨8 + n, by omega⟩)) ∧
  ReservedFieldError 0x01#8 (fun c => c.extractLsb' 8 24 ≠ 0) ∧ DroppedWhileBusy 0x00000001#32 ∧
  AcceptedAlways 0x00000001#32 ∧
  (∀ w2 w3 : Word, (keySchedule tables ⟨0, 0, w2, w3⟩).skey0 = 0) ∧
  (keySchedule tables .zero).skey1 = 0 ∧ (keySchedule tables .zero).subkey 0 = 0x57986F4C#32 ∧
  (keySchedule tables exampleKey).skey0 = 0x2F062AD7#32 ∧
  (keySchedule tables exampleKey).skey1 = 0xF204791A#32 ∧
  (keySchedule tables exampleKey).subkey 0 = 0xDDC13A91#32 ∧
  (keySchedule tables exampleKey).subkey 1 = 0xD77B904F#32

/-- Rules R26, R197, R237, R292: running KEYSCHED again on the same key writes the same schedule; writing a KEY
register while idle changes neither SKEY, KS nor KEYVALID, and every command that needs the key still computes with
the schedule it has. -/
def Obligations.ScheduleOutlivesTheKey : Prop :=
  (∀ s : State, ∃ t u, exec .keysched s = .next t ∧ exec .keysched t = .next u ∧ u.sched = t.sched) ∧
  (∀ (s : State) (j : Fin 4) (v : Word), s.status.busy = false →
    (memWrite (0x010 + 4 * j) v s).key = s.key.set j v ∧
    (memWrite (0x010 + 4 * j) v s).sched = s.sched ∧ (memWrite (0x010 + 4 * j) v s).status = s.status ∧
    ∀ i : Instr, i.needsKey = true →
      ∃ t u, exec i s = .next t ∧ exec i (memWrite (0x010 + 4 * j) v s) = .next u ∧
        u.dout = t.dout ∧ t.sched = s.sched)

/-! ### Rounds -/

/-- Rule R214: each round undoes its mirror, for every choice of the tables, every schedule, round and state. -/
def Obligations.RoundsInvertEachOther : Prop :=
  ∀ (T : Tables) (k : Schedule) (r : Fin 16) (b : Quad),
    decRound T k r (encRound T k r b) = b ∧ encRound T k r (decRound T k r b) = b

/-- Rule R215, whole: `tf.rndenc r`. -/
def Obligations.RndencCommand : Prop :=
  (∀ r : Nat, r < 16 →
    encode (.rndenc r) = 0x00000004#32 ||| (BitVec.ofNat 32 r <<< 8) ∧
    decode (encode (.rndenc r)) = .ok (.rndenc r) ∧ AcceptedWithKey (encode (.rndenc r)) ∧
    DroppedWhileBusy (encode (.rndenc r))) ∧
  (∀ (s : State) (r : Fin 16),
    let t0 := gFunction tables s.din.w0 s.sched.skey0 s.sched.skey1
    let t1 := gFunction tables (s.din.w1.rotateLeft 8) s.sched.skey0 s.sched.skey1
    let f0 := t1 + t0 + s.sched.subkey ⟨2 * r + 8, by omega⟩
    let f1 := 2 * t1 + t0 + s.sched.subkey ⟨2 * r + 9, by omega⟩
    exec (.rndenc r) s =
      .next { s with
        dout := ⟨(s.din.w2 ^^^ f0).rotateRight 1, s.din.w3.rotateLeft 1 ^^^ f1, s.din.w0, s.din.w1⟩
        pend := none
        status := { s.status with busy := false, done := true } }) ∧
  ReservedFieldError 0x04#8 (fun c => selOf c = true ∨ rsvdOf c ≠ 0) ∧
  (∀ (s : State) (r : Fin 16), s.din = .zero →
    let t := gFunction tables 0 s.sched.skey0 s.sched.skey1
    ∃ u, exec (.rndenc r) s = .next u ∧
      u.dout = ⟨(t + t + s.sched.subkey ⟨2 * r + 8, by omega⟩).rotateRight 1,
        2 * t + t + s.sched.subkey ⟨2 * r + 9, by omega⟩, 0, 0⟩) ∧
  encRound tables (keySchedule tables .zero) 0 .zero = ⟨0x3CCD0A00, 0x3A5C8E81, 0, 0⟩

/-- Rule R216, whole: `tf.rnddec r`. -/
def Obligations.RnddecCommand : Prop :=
  (∀ r : Nat, r < 16 →
    encode (.rnddec r) = 0x00000005#32 ||| (BitVec.ofNat 32 r <<< 8) ∧
    decode (encode (.rnddec r)) = .ok (.rnddec r) ∧ AcceptedWithKey (encode (.rnddec r)) ∧
    DroppedWhileBusy (encode (.rnddec r))) ∧
  (∀ (s : State) (r : Fin 16),
    let t0 := gFunction tables s.din.w2 s.sched.skey0 s.sched.skey1
    let t1 := gFunction tables (s.din.w3.rotateLeft 8) s.sched.skey0 s.sched.skey1
    let f0 := t1 + t0 + s.sched.subkey ⟨2 * r + 8, by omega⟩
    let f1 := 2 * t1 + t0 + s.sched.subkey ⟨2 * r + 9, by omega⟩
    exec (.rnddec r) s =
      .next { s with
        dout := ⟨s.din.w2, s.din.w3, s.din.w0.rotateLeft 1 ^^^ f0, (s.din.w1 ^^^ f1).rotateRight 1⟩
        pend := none
        status := { s.status with busy := false, done := true } }) ∧
  ReservedFieldError 0x05#8 (fun c => selOf c = true ∨ rsvdOf c ≠ 0) ∧
  (∀ (s : State) (r : Fin 16), ∃ t u, exec (.rndenc r) s = .next t ∧
    exec (.rnddec r) { t with din := t.dout } = .next u ∧ u.dout = s.din) ∧
  (∃ (s t u : State) (r r' : Fin 16), exec (.rndenc r) s = .next t ∧
    exec (.rnddec r') { t with din := t.dout } = .next u ∧ u.dout ≠ s.din) ∧
  decRound tables (keySchedule tables .zero) 0 ⟨0x3CCD0A00, 0x3A5C8E81, 0, 0⟩ = .zero ∧
  decRound tables (keySchedule tables exampleKey) 0 ⟨1, 2, 3, 4⟩ = ⟨0x00000003, 0x00000004, 0x135969FF, 0xE112B5A4⟩

/-! ### Whole blocks -/

/-- Rule R231, whole: `tf.whiten.in` and `tf.whiten.out`. -/
def Obligations.WhitenCommands : Prop :=
  encode .whitenIn = 0x00000006#32 ∧ encode .whitenOut = 0x00001006#32 ∧
  decode 0x00000006#32 = .ok .whitenIn ∧ decode 0x00001006#32 = .ok .whitenOut ∧
  (∀ s : State,
    exec .whitenIn s =
      .next { s with
        dout := ⟨s.din.w0 ^^^ s.sched.subkey 0, s.din.w1 ^^^ s.sched.subkey 1,
          s.din.w2 ^^^ s.sched.subkey 2, s.din.w3 ^^^ s.sched.subkey 3⟩
        pend := none
        status := { s.status with busy := false, done := true } } ∧
    exec .whitenOut s =
      .next { s with
        dout := ⟨s.din.w0 ^^^ s.sched.subkey 4, s.din.w1 ^^^ s.sched.subkey 5,
          s.din.w2 ^^^ s.sched.subkey 6, s.din.w3 ^^^ s.sched.subkey 7⟩
        pend := none
        status := { s.status with busy := false, done := true } }) ∧
  ReservedFieldError 0x06#8 (fun c => ridxOf c ≠ 0 ∨ rsvdOf c ≠ 0) ∧
  AcceptedWithKey 0x00000006#32 ∧ AcceptedWithKey 0x00001006#32 ∧
  DroppedWhileBusy 0x00000006#32 ∧ DroppedWhileBusy 0x00001006#32 ∧
  (∀ k : Schedule,
    whiten k .input .zero = ⟨k.subkey 0, k.subkey 1, k.subkey 2, k.subkey 3⟩ ∧
    whiten k .output .zero = ⟨k.subkey 4, k.subkey 5, k.subkey 6, k.subkey 7⟩ ∧
    ∀ (g : WhitenGroup) (b : Quad), whiten k g (whiten k g b) = b) ∧
  whiten (keySchedule tables exampleKey) .input ⟨0x00112233, 0x44556677, 0x8899AABB, 0xCCDDEEFF⟩ =
    ⟨0xDDD018A2, 0x932EF638, 0x96BE33E6, 0x20DF1B75⟩ ∧
  whiten (keySchedule tables exampleKey) .output ⟨0x00112233, 0x44556677, 0x8899AABB, 0xCCDDEEFF⟩ =
    ⟨0x00857146, 0xCCD50878, 0x0E5A80B6, 0xE015ADF4⟩

/-- Rule R233, whole: `tf.encrypt`; repeating it gives the same block, and feeding DOUT back gives double
encryption. -/
def Obligations.EncryptCommand : Prop :=
  encode .encrypt = 0x00000002#32 ∧ decode 0x00000002#32 = .ok .encrypt ∧
  (∀ s : State, exec .encrypt s =
    .next { s with
      dout := encryptBlock tables s.sched s.din
      pend := none
      status := { s.status with busy := false, done := true } }) ∧
  ReservedFieldError 0x02#8 (fun c => c.extractLsb' 8 24 ≠ 0) ∧ AcceptedWithKey 0x00000002#32 ∧
  DroppedWhileBusy 0x00000002#32 ∧
  (∀ s : State, ∃ t u w, exec .encrypt s = .next t ∧ exec .encrypt t = .next u ∧ t.din = s.din ∧
    u.dout = t.dout ∧ exec .encrypt { t with din := t.dout } = .next w ∧
    w.dout = encryptBlock tables s.sched (encryptBlock tables s.sched s.din)) ∧
  encryptBlock tables (keySchedule tables .zero) .zero = ⟨0x4C229D4C, 0xEB2D0EBB, 0xA46644E1, 0x4D55BF2A⟩

/-- Rule R234, whole: `tf.decrypt`. -/
def Obligations.DecryptCommand : Prop :=
  encode .decrypt = 0x00000003#32 ∧ decode 0x00000003#32 = .ok .decrypt ∧
  (∀ s : State, exec .decrypt s =
    .next { s with
      dout := decryptBlock tables s.sched s.din
      pend := none
      status := { s.status with busy := false, done := true } }) ∧
  ReservedFieldError 0x03#8 (fun c => c.extractLsb' 8 24 ≠ 0) ∧ AcceptedWithKey 0x00000003#32 ∧
  DroppedWhileBusy 0x00000003#32 ∧
  (∀ (k : Schedule) (p : Quad), decryptBlock tables k (encryptBlock tables k p) = p) ∧
  decryptBlock tables (keySchedule tables .zero) .zero = ⟨0x8EE078CD, 0x7FC837F0, 0xFFB4847A, 0x8834823F⟩ ∧
  decryptBlock tables (keySchedule tables .zero) ⟨0x4C229D4C, 0xEB2D0EBB, 0xA46644E1, 0x4D55BF2A⟩ = .zero

/-- Rule R235: decryption undoes encryption and encryption undoes decryption, for every choice of the tables, every
schedule, whether or not KEYSCHED made it, and every block. -/
def Obligations.InverseLaw : Prop :=
  ∀ (T : Tables) (k : Schedule) (b : Quad),
    decryptBlock T k (encryptBlock T k b) = b ∧ encryptBlock T k (decryptBlock T k b) = b

/-- Rule R238: the single-step commands, with DOUT copied to DIN between them, compute what ENCRYPT and, in the
mirror order, DECRYPT compute, from every state. -/
def Obligations.SingleStepsComposeToTheBlock : Prop :=
  ∀ s : State,
    (∃ t u, chain ([.whitenIn] ++ (List.range 16).map .rndenc ++ [.whitenOut]) s = .next t ∧
      exec .encrypt s = .next u ∧ t.dout = u.dout) ∧
    (∃ t u, chain ([.whitenOut] ++ (List.range 16).reverse.map .rnddec ++ [.whitenIn]) s = .next t ∧
      exec .decrypt s = .next u ∧ t.dout = u.dout)

/-! ### NOP and the host's notation -/

/-- Rule R105, whole: `tf.nop`. -/
def Obligations.NopCommand : Prop :=
  encode .nop = 0x00000000#32 ∧ decode 0x00000000#32 = .ok .nop ∧
  (∀ s : State, exec .nop s =
    .next { s with pend := none, status := { s.status with busy := false, done := true } }) ∧
  (∀ s : State, s.status.busy = false → memWrite 0x004 0x00000000#32 s =
    { s with cmd := 0, pend := some 0, status := { s.status with busy := true, done := false } }) ∧
  ReservedFieldError 0x00#8 (fun c => c.extractLsb' 8 24 ≠ 0) ∧ DroppedWhileBusy 0x00000000#32 ∧
  (∃ t, exec .nop (memWrite 0x004 0x00000000#32 State.reset) = .next t ∧ memRead 0x008 t = 0x00000002#32 ∧
    memRead 0x004 t = 0)

/-- Rule R92, of `wait` and `cpblk` (log entry 17): the poll loop ends with h15 = 0 once BUSY is 0 and goes round
while it is 1; the copy moves DOUT0..3 to DIN0..3 and ends with h15 = DOUT3. -/
def Obligations.WaitAndCopyBlock : Prop :=
  (∀ (prog : List HostOp) (y : System), (prog.drop y.host.next).take 3 = wait y.host.next →
    ∃ z, hostTurns prog 3 y = .next z ∧
      z.engine = { y.engine with replies := y.engine.status.toWord :: y.engine.replies } ∧
      (y.engine.status.busy = false → z.host.next = y.host.next + 3 ∧ z.host.h = y.host.h.set 15 0) ∧
      (y.engine.status.busy = true → z.host.next = y.host.next ∧ z.host.h = y.host.h.set 15 1)) ∧
  (∀ (prog : List HostOp) (y : System), (prog.drop y.host.next).take 8 = cpblk → y.engine.status.busy = false →
    ∃ z, hostTurns prog 8 y = .next z ∧ z.engine.din = y.engine.dout ∧ z.engine.dout = y.engine.dout ∧
      z.engine.status = y.engine.status ∧ z.host.next = y.host.next + 8 ∧
      z.host.h = y.host.h.set 15 y.engine.dout.w3)
end

