-- ==== Sys2Proof/Laws/Bits.lean ====
section
/-!
SUPPORT. The bit and byte helpers of rules R11, R12: rotations undo each other, packing and unpacking undo
each other, XOR cancels.
-/

namespace Sys2Proof.Machine

theorem rol32_ror32 (x : Word) : rol32 (ror32 x 1) 1 = x := by
  ext i hi
  simp only [rol32, ror32, BitVec.getElem_rotateLeft, BitVec.getElem_rotateRight]
  split <;> split <;> first | omega | (congr 1; omega)

theorem ror32_rol32 (x : Word) : ror32 (rol32 x 1) 1 = x := by
  ext i hi
  simp only [rol32, ror32, BitVec.getElem_rotateLeft, BitVec.getElem_rotateRight]
  split <;> split <;> first | omega | (congr 1; omega)

theorem xor_cancel_right {w : Nat} (x y : BitVec w) : x ^^^ y ^^^ y = x := by
  rw [BitVec.xor_assoc, BitVec.xor_self, BitVec.xor_zero]

theorem getLsbD_byte (w : Word) (j i : Nat) : (byte w j).getLsbD i = (decide (i < 8) && w.getLsbD (8 * j + i)) := by
  simp [byte]

/-- Bit i of a packed word is bit `i % 8` of the byte it lies in. -/
theorem getLsbD_word (b0 b1 b2 b3 : Byte) (i : Nat) :
    (word b0 b1 b2 b3).getLsbD i =
      if i < 8 then b3.getLsbD i
      else if i < 16 then b2.getLsbD (i - 8)
      else if i < 24 then b1.getLsbD (i - 16)
      else b0.getLsbD (i - 24) := by
  by_cases hi : i < 32
  · interval_cases i <;> simp [word]
  · have h : ¬ i < 8 ∧ ¬ i < 16 ∧ ¬ i < 24 := by omega
    rw [BitVec.getLsbD_of_ge _ _ (by omega), if_neg h.1, if_neg h.2.1, if_neg h.2.2,
      BitVec.getLsbD_of_ge _ _ (by omega)]

theorem byte_word_0 (b0 b1 b2 b3 : Byte) : byte (word b0 b1 b2 b3) 0 = b3 := by
  ext i hi
  rw [← BitVec.getLsbD_eq_getElem, getLsbD_byte, getLsbD_word]
  simp [hi, BitVec.getLsbD_eq_getElem]

theorem byte_word_1 (b0 b1 b2 b3 : Byte) : byte (word b0 b1 b2 b3) 1 = b2 := by
  ext i hi
  rw [← BitVec.getLsbD_eq_getElem, getLsbD_byte, getLsbD_word, if_neg (by omega), if_pos (by omega)]
  simp [hi, BitVec.getLsbD_eq_getElem]

theorem byte_word_2 (b0 b1 b2 b3 : Byte) : byte (word b0 b1 b2 b3) 2 = b1 := by
  ext i hi
  rw [← BitVec.getLsbD_eq_getElem, getLsbD_byte, getLsbD_word, if_neg (by omega), if_neg (by omega),
    if_pos (by omega)]
  simp [hi, BitVec.getLsbD_eq_getElem]

theorem byte_word_3 (b0 b1 b2 b3 : Byte) : byte (word b0 b1 b2 b3) 3 = b0 := by
  ext i hi
  rw [← BitVec.getLsbD_eq_getElem, getLsbD_byte, getLsbD_word, if_neg (by omega), if_neg (by omega),
    if_neg (by omega)]
  simp [hi, BitVec.getLsbD_eq_getElem]

/-- A word is the packing of its own bytes. -/
theorem word_bytes (w : Word) : word (byte w 3) (byte w 2) (byte w 1) (byte w 0) = w := by
  ext i hi
  rw [← BitVec.getLsbD_eq_getElem, getLsbD_word, ← BitVec.getLsbD_eq_getElem]
  simp only [getLsbD_byte]
  split_ifs with h0 h1 h2
  · simp [h0]
  · rw [show 8 * 1 + (i - 8) = i by omega, decide_eq_true (by omega), Bool.true_and]
  · rw [show 8 * 2 + (i - 16) = i by omega, decide_eq_true (by omega), Bool.true_and]
  · rw [show 8 * 3 + (i - 24) = i by omega, decide_eq_true (by omega), Bool.true_and]

/-- XOR of packed words is byte by byte. -/
theorem word_xor (a0 a1 a2 a3 b0 b1 b2 b3 : Byte) :
    word a0 a1 a2 a3 ^^^ word b0 b1 b2 b3 = word (a0 ^^^ b0) (a1 ^^^ b1) (a2 ^^^ b2) (a3 ^^^ b3) := by
  ext i hi
  simp only [← BitVec.getLsbD_eq_getElem, BitVec.getLsbD_xor, getLsbD_word]
  split_ifs <;> rfl

end Sys2Proof.Machine
end

