-- ==== Sys2Proof/Laws/State.lean ====
section
/-!
SUPPORT. One lemma for each field of `State` under each shared update, and for each field of `Status` under each
of its changes, so that no later proof unfolds a record update.
-/

namespace Sys2Proof.Machine

/-! ### STATUS -/

@[simp] theorem Status.accepted_busy (t : Status) : (t.accepted).busy = true := rfl
@[simp] theorem Status.accepted_done (t : Status) : (t.accepted).done = false := rfl
@[simp] theorem Status.accepted_keyValid (t : Status) : (t.accepted).keyValid = t.keyValid := rfl
@[simp] theorem Status.accepted_err (t : Status) : (t.accepted).err = t.err := rfl
@[simp] theorem Status.accepted_eovf (t : Status) : (t.accepted).eovf = t.eovf := rfl
@[simp] theorem Status.accepted_errCode (t : Status) : (t.accepted).errCode = t.errCode := rfl

@[simp] theorem Status.completed_busy (t : Status) : (t.completed).busy = false := rfl
@[simp] theorem Status.completed_done (t : Status) : (t.completed).done = true := rfl
@[simp] theorem Status.completed_keyValid (t : Status) : (t.completed).keyValid = t.keyValid := rfl
@[simp] theorem Status.completed_err (t : Status) : (t.completed).err = t.err := rfl
@[simp] theorem Status.completed_eovf (t : Status) : (t.completed).eovf = t.eovf := rfl
@[simp] theorem Status.completed_errCode (t : Status) : (t.completed).errCode = t.errCode := rfl

@[simp] theorem Status.keyed_busy (t : Status) : (t.keyed).busy = t.busy := rfl
@[simp] theorem Status.keyed_done (t : Status) : (t.keyed).done = t.done := rfl
@[simp] theorem Status.keyed_keyValid (t : Status) : (t.keyed).keyValid = true := rfl
@[simp] theorem Status.keyed_err (t : Status) : (t.keyed).err = t.err := rfl
@[simp] theorem Status.keyed_eovf (t : Status) : (t.keyed).eovf = t.eovf := rfl
@[simp] theorem Status.keyed_errCode (t : Status) : (t.keyed).errCode = t.errCode := rfl

@[simp] theorem Status.clearedBy_busy (t : Status) (v : Word) : (t.clearedBy v).busy = t.busy := rfl
@[simp] theorem Status.clearedBy_done (t : Status) (v : Word) : (t.clearedBy v).done = (t.done && !v.getLsbD 1) := rfl
@[simp] theorem Status.clearedBy_keyValid (t : Status) (v : Word) : (t.clearedBy v).keyValid = t.keyValid := rfl
@[simp] theorem Status.clearedBy_err (t : Status) (v : Word) : (t.clearedBy v).err = (t.err && !v.getLsbD 3) := rfl
@[simp] theorem Status.clearedBy_eovf (t : Status) (v : Word) : (t.clearedBy v).eovf = (t.eovf && !v.getLsbD 4) := rfl
@[simp] theorem Status.clearedBy_errCode (t : Status) (v : Word) : (t.clearedBy v).errCode = if v.getLsbD 3 then 0 else t.errCode := rfl

@[simp] theorem Status.recorded_busy (t : Status) (e : ErrCode) : (t.recorded e).busy = t.busy := by
  unfold Status.recorded; split <;> rfl
@[simp] theorem Status.recorded_done (t : Status) (e : ErrCode) : (t.recorded e).done = t.done := by
  unfold Status.recorded; split <;> rfl
@[simp] theorem Status.recorded_keyValid (t : Status) (e : ErrCode) : (t.recorded e).keyValid = t.keyValid := by
  unfold Status.recorded; split <;> rfl

@[simp] theorem Status.recorded_err (t : Status) (e : ErrCode) : (t.recorded e).err = true := by
  unfold Status.recorded; split <;> simp_all

theorem Status.recorded_completed (t : Status) (e : ErrCode) :
    (t.recorded e).completed = t.completed.recorded e := by
  cases h : t.err <;> simp [Status.recorded, Status.completed, h]

theorem Status.recorded_keyed (t : Status) (e : ErrCode) : (t.recorded e).keyed = t.keyed.recorded e := by
  cases h : t.err <;> simp [Status.recorded, Status.keyed, h]

theorem Status.recorded_first (t : Status) (e : ErrCode) (h : t.err = false) :
    t.recorded e = { t with err := true, errCode := e.code } := by simp [Status.recorded, h]

theorem Status.recorded_later (t : Status) (e : ErrCode) (h : t.err = true) :
    t.recorded e = { t with eovf := true } := by simp [Status.recorded, h]

/-! ### The shared operations -/

@[simp] theorem accept_cmd (c : Word) (s : State) : (accept c s).cmd = c := rfl
@[simp] theorem accept_status (c : Word) (s : State) : (accept c s).status = s.status.accepted := rfl
@[simp] theorem accept_errInfo (c : Word) (s : State) : (accept c s).errInfo = s.errInfo := rfl
@[simp] theorem accept_key (c : Word) (s : State) : (accept c s).key = s.key := rfl
@[simp] theorem accept_din (c : Word) (s : State) : (accept c s).din = s.din := rfl
@[simp] theorem accept_dout (c : Word) (s : State) : (accept c s).dout = s.dout := rfl
@[simp] theorem accept_opa (c : Word) (s : State) : (accept c s).opa = s.opa := rfl
@[simp] theorem accept_opb (c : Word) (s : State) : (accept c s).opb = s.opb := rfl
@[simp] theorem accept_opc (c : Word) (s : State) : (accept c s).opc = s.opc := rfl
@[simp] theorem accept_res (c : Word) (s : State) : (accept c s).res = s.res := rfl
@[simp] theorem accept_resHi (c : Word) (s : State) : (accept c s).resHi = s.resHi := rfl
@[simp] theorem accept_sched (c : Word) (s : State) : (accept c s).sched = s.sched := rfl
@[simp] theorem accept_pend (c : Word) (s : State) : (accept c s).pend = some c := rfl
@[simp] theorem accept_events (c : Word) (s : State) : (accept c s).events = s.events := rfl
@[simp] theorem accept_replies (c : Word) (s : State) : (accept c s).replies = s.replies := rfl

@[simp] theorem complete_cmd (s : State) : (complete s).cmd = s.cmd := rfl
@[simp] theorem complete_status (s : State) : (complete s).status = s.status.completed := rfl
@[simp] theorem complete_errInfo (s : State) : (complete s).errInfo = s.errInfo := rfl
@[simp] theorem complete_key (s : State) : (complete s).key = s.key := rfl
@[simp] theorem complete_din (s : State) : (complete s).din = s.din := rfl
@[simp] theorem complete_dout (s : State) : (complete s).dout = s.dout := rfl
@[simp] theorem complete_opa (s : State) : (complete s).opa = s.opa := rfl
@[simp] theorem complete_opb (s : State) : (complete s).opb = s.opb := rfl
@[simp] theorem complete_opc (s : State) : (complete s).opc = s.opc := rfl
@[simp] theorem complete_res (s : State) : (complete s).res = s.res := rfl
@[simp] theorem complete_resHi (s : State) : (complete s).resHi = s.resHi := rfl
@[simp] theorem complete_sched (s : State) : (complete s).sched = s.sched := rfl
@[simp] theorem complete_pend (s : State) : (complete s).pend = none := rfl
@[simp] theorem complete_events (s : State) : (complete s).events = s.events := rfl
@[simp] theorem complete_replies (s : State) : (complete s).replies = s.replies := rfl

@[simp] theorem completeResult_cmd (lo hi : Word) (s : State) : (completeResult lo hi s).cmd = s.cmd := rfl
@[simp] theorem completeResult_status (lo hi : Word) (s : State) : (completeResult lo hi s).status = s.status.completed := rfl
@[simp] theorem completeResult_errInfo (lo hi : Word) (s : State) : (completeResult lo hi s).errInfo = s.errInfo := rfl
@[simp] theorem completeResult_key (lo hi : Word) (s : State) : (completeResult lo hi s).key = s.key := rfl
@[simp] theorem completeResult_din (lo hi : Word) (s : State) : (completeResult lo hi s).din = s.din := rfl
@[simp] theorem completeResult_dout (lo hi : Word) (s : State) : (completeResult lo hi s).dout = s.dout := rfl
@[simp] theorem completeResult_opa (lo hi : Word) (s : State) : (completeResult lo hi s).opa = s.opa := rfl
@[simp] theorem completeResult_opb (lo hi : Word) (s : State) : (completeResult lo hi s).opb = s.opb := rfl
@[simp] theorem completeResult_opc (lo hi : Word) (s : State) : (completeResult lo hi s).opc = s.opc := rfl
@[simp] theorem completeResult_res (lo hi : Word) (s : State) : (completeResult lo hi s).res = lo := rfl
@[simp] theorem completeResult_resHi (lo hi : Word) (s : State) : (completeResult lo hi s).resHi = hi := rfl
@[simp] theorem completeResult_sched (lo hi : Word) (s : State) : (completeResult lo hi s).sched = s.sched := rfl
@[simp] theorem completeResult_pend (lo hi : Word) (s : State) : (completeResult lo hi s).pend = none := rfl
@[simp] theorem completeResult_events (lo hi : Word) (s : State) : (completeResult lo hi s).events = s.events := rfl
@[simp] theorem completeResult_replies (lo hi : Word) (s : State) : (completeResult lo hi s).replies = s.replies := rfl

@[simp] theorem completeBlock_cmd (b : Quad) (s : State) : (completeBlock b s).cmd = s.cmd := rfl
@[simp] theorem completeBlock_status (b : Quad) (s : State) : (completeBlock b s).status = s.status.completed := rfl
@[simp] theorem completeBlock_errInfo (b : Quad) (s : State) : (completeBlock b s).errInfo = s.errInfo := rfl
@[simp] theorem completeBlock_key (b : Quad) (s : State) : (completeBlock b s).key = s.key := rfl
@[simp] theorem completeBlock_din (b : Quad) (s : State) : (completeBlock b s).din = s.din := rfl
@[simp] theorem completeBlock_dout (b : Quad) (s : State) : (completeBlock b s).dout = b := rfl
@[simp] theorem completeBlock_opa (b : Quad) (s : State) : (completeBlock b s).opa = s.opa := rfl
@[simp] theorem completeBlock_opb (b : Quad) (s : State) : (completeBlock b s).opb = s.opb := rfl
@[simp] theorem completeBlock_opc (b : Quad) (s : State) : (completeBlock b s).opc = s.opc := rfl
@[simp] theorem completeBlock_res (b : Quad) (s : State) : (completeBlock b s).res = s.res := rfl
@[simp] theorem completeBlock_resHi (b : Quad) (s : State) : (completeBlock b s).resHi = s.resHi := rfl
@[simp] theorem completeBlock_sched (b : Quad) (s : State) : (completeBlock b s).sched = s.sched := rfl
@[simp] theorem completeBlock_pend (b : Quad) (s : State) : (completeBlock b s).pend = none := rfl
@[simp] theorem completeBlock_events (b : Quad) (s : State) : (completeBlock b s).events = s.events := rfl
@[simp] theorem completeBlock_replies (b : Quad) (s : State) : (completeBlock b s).replies = s.replies := rfl

@[simp] theorem raise_cmd (e : ErrCode) (info : Word) (s : State) : (raise e info s).cmd = s.cmd := rfl
@[simp] theorem raise_status (e : ErrCode) (info : Word) (s : State) : (raise e info s).status = s.status.recorded e := rfl
@[simp] theorem raise_errInfo (e : ErrCode) (info : Word) (s : State) : (raise e info s).errInfo = if s.status.err then s.errInfo else info := rfl
@[simp] theorem raise_key (e : ErrCode) (info : Word) (s : State) : (raise e info s).key = s.key := rfl
@[simp] theorem raise_din (e : ErrCode) (info : Word) (s : State) : (raise e info s).din = s.din := rfl
@[simp] theorem raise_dout (e : ErrCode) (info : Word) (s : State) : (raise e info s).dout = s.dout := rfl
@[simp] theorem raise_opa (e : ErrCode) (info : Word) (s : State) : (raise e info s).opa = s.opa := rfl
@[simp] theorem raise_opb (e : ErrCode) (info : Word) (s : State) : (raise e info s).opb = s.opb := rfl
@[simp] theorem raise_opc (e : ErrCode) (info : Word) (s : State) : (raise e info s).opc = s.opc := rfl
@[simp] theorem raise_res (e : ErrCode) (info : Word) (s : State) : (raise e info s).res = s.res := rfl
@[simp] theorem raise_resHi (e : ErrCode) (info : Word) (s : State) : (raise e info s).resHi = s.resHi := rfl
@[simp] theorem raise_sched (e : ErrCode) (info : Word) (s : State) : (raise e info s).sched = s.sched := rfl
@[simp] theorem raise_pend (e : ErrCode) (info : Word) (s : State) : (raise e info s).pend = s.pend := rfl
@[simp] theorem raise_events (e : ErrCode) (info : Word) (s : State) : (raise e info s).events = s.events := rfl
@[simp] theorem raise_replies (e : ErrCode) (info : Word) (s : State) : (raise e info s).replies = s.replies := rfl

@[simp] theorem writeStatus_cmd (v : Word) (s : State) : (writeStatus v s).cmd = s.cmd := rfl
@[simp] theorem writeStatus_status (v : Word) (s : State) : (writeStatus v s).status = s.status.clearedBy v := rfl
@[simp] theorem writeStatus_errInfo (v : Word) (s : State) : (writeStatus v s).errInfo = if v.getLsbD 3 then 0 else s.errInfo := rfl
@[simp] theorem writeStatus_key (v : Word) (s : State) : (writeStatus v s).key = s.key := rfl
@[simp] theorem writeStatus_din (v : Word) (s : State) : (writeStatus v s).din = s.din := rfl
@[simp] theorem writeStatus_dout (v : Word) (s : State) : (writeStatus v s).dout = s.dout := rfl
@[simp] theorem writeStatus_opa (v : Word) (s : State) : (writeStatus v s).opa = s.opa := rfl
@[simp] theorem writeStatus_opb (v : Word) (s : State) : (writeStatus v s).opb = s.opb := rfl
@[simp] theorem writeStatus_opc (v : Word) (s : State) : (writeStatus v s).opc = s.opc := rfl
@[simp] theorem writeStatus_res (v : Word) (s : State) : (writeStatus v s).res = s.res := rfl
@[simp] theorem writeStatus_resHi (v : Word) (s : State) : (writeStatus v s).resHi = s.resHi := rfl
@[simp] theorem writeStatus_sched (v : Word) (s : State) : (writeStatus v s).sched = s.sched := rfl
@[simp] theorem writeStatus_pend (v : Word) (s : State) : (writeStatus v s).pend = s.pend := rfl
@[simp] theorem writeStatus_events (v : Word) (s : State) : (writeStatus v s).events = s.events := rfl
@[simp] theorem writeStatus_replies (v : Word) (s : State) : (writeStatus v s).replies = s.replies := rfl

@[simp] theorem applyReset_cmd (s : State) : (applyReset s).cmd = State.reset.cmd := rfl
@[simp] theorem applyReset_status (s : State) : (applyReset s).status = State.reset.status := rfl
@[simp] theorem applyReset_errInfo (s : State) : (applyReset s).errInfo = State.reset.errInfo := rfl
@[simp] theorem applyReset_key (s : State) : (applyReset s).key = State.reset.key := rfl
@[simp] theorem applyReset_din (s : State) : (applyReset s).din = State.reset.din := rfl
@[simp] theorem applyReset_dout (s : State) : (applyReset s).dout = State.reset.dout := rfl
@[simp] theorem applyReset_opa (s : State) : (applyReset s).opa = State.reset.opa := rfl
@[simp] theorem applyReset_opb (s : State) : (applyReset s).opb = State.reset.opb := rfl
@[simp] theorem applyReset_opc (s : State) : (applyReset s).opc = State.reset.opc := rfl
@[simp] theorem applyReset_res (s : State) : (applyReset s).res = State.reset.res := rfl
@[simp] theorem applyReset_resHi (s : State) : (applyReset s).resHi = State.reset.resHi := rfl
@[simp] theorem applyReset_sched (s : State) : (applyReset s).sched = State.reset.sched := rfl
@[simp] theorem applyReset_pend (s : State) : (applyReset s).pend = State.reset.pend := rfl
@[simp] theorem applyReset_events (s : State) : (applyReset s).events = s.events := rfl
@[simp] theorem applyReset_replies (s : State) : (applyReset s).replies = s.replies := rfl

@[simp] theorem placeCommand_cmd (c : Word) (s : State) : (placeCommand c s).cmd = c := rfl
@[simp] theorem placeCommand_status (c : Word) (s : State) : (placeCommand c s).status = s.status.accepted := rfl
@[simp] theorem placeCommand_errInfo (c : Word) (s : State) : (placeCommand c s).errInfo = s.errInfo := rfl
@[simp] theorem placeCommand_key (c : Word) (s : State) : (placeCommand c s).key = s.key := rfl
@[simp] theorem placeCommand_din (c : Word) (s : State) : (placeCommand c s).din = s.din := rfl
@[simp] theorem placeCommand_dout (c : Word) (s : State) : (placeCommand c s).dout = s.dout := rfl
@[simp] theorem placeCommand_opa (c : Word) (s : State) : (placeCommand c s).opa = s.opa := rfl
@[simp] theorem placeCommand_opb (c : Word) (s : State) : (placeCommand c s).opb = s.opb := rfl
@[simp] theorem placeCommand_opc (c : Word) (s : State) : (placeCommand c s).opc = s.opc := rfl
@[simp] theorem placeCommand_res (c : Word) (s : State) : (placeCommand c s).res = s.res := rfl
@[simp] theorem placeCommand_resHi (c : Word) (s : State) : (placeCommand c s).resHi = s.resHi := rfl
@[simp] theorem placeCommand_sched (c : Word) (s : State) : (placeCommand c s).sched = s.sched := rfl
@[simp] theorem placeCommand_pend (c : Word) (s : State) : (placeCommand c s).pend = some c := rfl
@[simp] theorem placeCommand_events (c : Word) (s : State) : (placeCommand c s).events = .engine :: s.events := rfl
@[simp] theorem placeCommand_replies (c : Word) (s : State) : (placeCommand c s).replies = s.replies := rfl

/-! ### A write to an RW register leaves everything but its data register -/

@[simp] theorem writeReg_cmd (s : State) (r : Reg) (v : Word) : (writeReg s r v).cmd = s.cmd := by
  cases r <;> rfl
@[simp] theorem writeReg_status (s : State) (r : Reg) (v : Word) : (writeReg s r v).status = s.status := by
  cases r <;> rfl
@[simp] theorem writeReg_errInfo (s : State) (r : Reg) (v : Word) : (writeReg s r v).errInfo = s.errInfo := by
  cases r <;> rfl
@[simp] theorem writeReg_dout (s : State) (r : Reg) (v : Word) : (writeReg s r v).dout = s.dout := by
  cases r <;> rfl
@[simp] theorem writeReg_res (s : State) (r : Reg) (v : Word) : (writeReg s r v).res = s.res := by
  cases r <;> rfl
@[simp] theorem writeReg_resHi (s : State) (r : Reg) (v : Word) : (writeReg s r v).resHi = s.resHi := by
  cases r <;> rfl
@[simp] theorem writeReg_sched (s : State) (r : Reg) (v : Word) : (writeReg s r v).sched = s.sched := by
  cases r <;> rfl
@[simp] theorem writeReg_pend (s : State) (r : Reg) (v : Word) : (writeReg s r v).pend = s.pend := by
  cases r <;> rfl
@[simp] theorem writeReg_events (s : State) (r : Reg) (v : Word) : (writeReg s r v).events = s.events := by
  cases r <;> rfl
@[simp] theorem writeReg_replies (s : State) (r : Reg) (v : Word) : (writeReg s r v).replies = s.replies := by
  cases r <;> rfl

end Sys2Proof.Machine
end

