-- ==== Sys2Proof/Laws/Ops.lean ====
section
/-!
SUPPORT. One lemma for each shared operation that says everything it can do, so that a later proof cites it
instead of unfolding the operation.
-/

namespace Sys2Proof.Machine

/-! ### Four-word registers -/

@[simp] theorem Quad.get_set_self (q : Quad) (i : Fin 4) (v : Word) : (q.set i v).get i = v := by
  fin_cases i <;> rfl

theorem Quad.get_set_ne (q : Quad) (i j : Fin 4) (v : Word) (h : j ≠ i) :
    (q.set i v).get j = q.get j := by
  fin_cases i <;> fin_cases j <;> first | rfl | exact absurd rfl h

theorem Quad.ext_get {a b : Quad} (h : ∀ i, a.get i = b.get i) : a = b := by
  have h0 := h 0
  have h1 := h 1
  have h2 := h 2
  have h3 := h 3
  cases a
  cases b
  simp_all [Quad.get]

/-! ### The register map -/

theorem Reg.mem_all (r : Reg) : r ∈ Reg.all := by
  cases r <;> simp [Reg.all]

/-- No two registers share an offset. -/
theorem Reg.offset_injective {r r' : Reg} (h : r.offset = r'.offset) : r = r' := by
  cases r <;> cases r' <;> simp only [Reg.offset] at h <;> first | rfl | omega | (congr 1; omega)

theorem Reg.offset_lt (r : Reg) : r.offset < windowSize := by
  cases r <;> simp only [Reg.offset, windowSize] <;> omega

theorem Reg.offset_aligned (r : Reg) : r.offset % 4 = 0 := by
  cases r <;> simp only [Reg.offset] <;> omega

/-- The register at an offset is the one whose offset it is. -/
theorem regAt_eq_some {off : Nat} {r : Reg} : regAt off = some r ↔ r.offset = off := by
  constructor
  · intro h
    simpa using List.find?_some h
  · rintro rfl
    cases h : regAt r.offset with
    | none => simpa using List.find?_eq_none.mp h r r.mem_all
    | some r' =>
      have h' := List.find?_some (p := fun x : Reg => x.offset == r.offset) h
      exact congrArg some (Reg.offset_injective (by simpa using h'))

@[simp] theorem regAt_offset (r : Reg) : regAt r.offset = some r := regAt_eq_some.mpr rfl

/-- An offset is reserved when no register has it. -/
theorem regAt_eq_none {off : Nat} : regAt off = none ↔ ∀ r : Reg, r.offset ≠ off := by
  constructor
  · intro h r hr
    rw [regAt_eq_some.mpr hr] at h
    cases h
  · intro h
    cases hr : regAt off with
    | none => rfl
    | some r => exact absurd (regAt_eq_some.mp hr) (h r)

/-! ### Register access -/

@[simp] theorem memRead_offset (r : Reg) (s : State) : memRead r.offset s = readReg s r := by
  simp [memRead]

theorem memRead_reserved {off : Nat} (h : ∀ r : Reg, r.offset ≠ off) (s : State) : memRead off s = 0 := by
  simp [memRead, regAt_eq_none.mpr h]

theorem readReg_writeReg_self {r : Reg} (h : r.isRW = true) (s : State) (v : Word) :
    readReg (writeReg s r v) r = v := by
  cases r <;> simp_all [Reg.isRW, readReg, writeReg]

theorem readReg_writeReg_ne {r r' : Reg} (h : r' ≠ r) (s : State) (v : Word) :
    readReg (writeReg s r v) r' = readReg s r' := by
  cases r <;> cases r' <;> simp_all [readReg, writeReg, Quad.get_set_ne]

/-- What a register write in the window can do: the five cases of rule R64. -/
theorem memWrite_cases (off : Nat) (v : Word) (s : State) :
    (off = 0x008 ∧ memWrite off v s = writeStatus v s) ∨
    (off ≠ 0x008 ∧ s.status.busy = true ∧ memWrite off v s = raise .busy (BitVec.ofNat 32 off) s) ∨
    (off = 0x004 ∧ s.status.busy = false ∧ memWrite off v s = present v s) ∨
    (∃ r : Reg, r.offset = off ∧ r.isRW = true ∧ s.status.busy = false ∧ memWrite off v s = writeReg s r v) ∨
    (off ≠ 0x008 ∧ off ≠ 0x004 ∧ (∀ r : Reg, r.offset = off → r.isRW = false) ∧ s.status.busy = false ∧
      memWrite off v s = raise .badAccess (BitVec.ofNat 32 off) s) := by
  unfold memWrite
  split
  · exact .inl ⟨‹_›, rfl⟩
  split
  · exact .inr (.inl ⟨‹_›, ‹_›, rfl⟩)
  have hb : s.status.busy = false := by simpa using ‹¬ s.status.busy = true›
  split
  · exact .inr (.inr (.inl ⟨‹_›, hb, rfl⟩))
  split
  · rename_i r hr
    have hr' := regAt_eq_some.mp hr
    split
    · exact .inr (.inr (.inr (.inl ⟨r, hr', ‹_›, hb, rfl⟩)))
    · refine .inr (.inr (.inr (.inr ⟨‹_›, ‹_›, ?_, hb, rfl⟩)))
      intro r' h'
      rw [Reg.offset_injective (h'.trans hr'.symm)]
      simpa using ‹¬ r.isRW = true›
  · rename_i hn
    exact .inr (.inr (.inr (.inr ⟨‹_›, ‹_›, fun r hr => absurd hr (regAt_eq_none.mp hn r), hb, rfl⟩)))

/-- What a presentation can do: the error of `check` is recorded, or the command is accepted (rule R100). -/
theorem present_cases (c : Word) (s : State) :
    (∃ e, check c s.status.keyValid = some e ∧ present c s = raise e c s) ∨
    (check c s.status.keyValid = none ∧ present c s = accept c s) := by
  unfold present
  cases h : check c s.status.keyValid with
  | some e => exact .inl ⟨e, rfl, rfl⟩
  | none => exact .inr ⟨rfl, rfl⟩

/-- The first error is recorded with its code and info (rule R252). -/
theorem raise_first (e : ErrCode) (info : Word) (s : State) (h : s.status.err = false) :
    raise e info s =
      { s with status := { s.status with err := true, errCode := e.code }, errInfo := info } := by
  simp [raise, Status.recorded_first _ _ h, h]

/-- A later error only sets EOVF (rule R252). -/
theorem raise_later (e : ErrCode) (info : Word) (s : State) (h : s.status.err = true) :
    raise e info s = { s with status := { s.status with eovf := true } } := by
  simp [raise, Status.recorded_later _ _ h, h]

/-! ### Accesses -/

theorem readAt_next {off width : Nat} {s t : State} :
    readAt off width s = .next t ↔
      off < windowSize ∧ alignedAccess off width ∧ t = { s with replies := memRead off s :: s.replies } := by
  unfold readAt
  by_cases h1 : off < windowSize
  · by_cases h2 : alignedAccess off width
    · rw [if_pos h1, if_pos h2]
      exact ⟨fun h => ⟨h1, h2, by cases h; rfl⟩, fun h => by rw [h.2.2]⟩
    · rw [if_pos h1, if_neg h2]
      exact ⟨fun h => (nomatch h), fun h => absurd h.2.1 h2⟩
  · rw [if_neg h1]
    exact ⟨fun h => (nomatch h), fun h => absurd h.1 h1⟩

theorem writeAt_next {off width : Nat} {v : Word} {s t : State} :
    writeAt off width v s = .next t ↔ off < windowSize ∧ alignedAccess off width ∧ t = memWrite off v s := by
  unfold writeAt
  by_cases h1 : off < windowSize
  · by_cases h2 : alignedAccess off width
    · rw [if_pos h1, if_pos h2]
      exact ⟨fun h => ⟨h1, h2, by cases h; rfl⟩, fun h => by rw [h.2.2]⟩
    · rw [if_pos h1, if_neg h2]
      exact ⟨fun h => (nomatch h), fun h => absurd h.2.1 h2⟩
  · rw [if_neg h1]
    exact ⟨fun h => (nomatch h), fun h => absurd h.1 h1⟩

@[simp] theorem busRead_base (off width : Nat) (s : State) :
    busRead (Config.tfBase + off) width s = readAt off width s := by
  simp [busRead]

@[simp] theorem busWrite_base (off width : Nat) (v : Word) (s : State) :
    busWrite (Config.tfBase + off) width v s = writeAt off width v s := by
  simp [busWrite]

theorem busRead_next {addr width : Nat} {s t : State} (h : busRead addr width s = .next t) :
    ∃ off, addr = Config.tfBase + off ∧ off < windowSize ∧ alignedAccess off width ∧
      t = { s with replies := memRead off s :: s.replies } := by
  unfold busRead at h
  split at h
  · exact ⟨addr - Config.tfBase, by omega, readAt_next.mp h⟩
  · cases h

theorem busWrite_next {addr width : Nat} {v : Word} {s t : State} (h : busWrite addr width v s = .next t) :
    ∃ off, addr = Config.tfBase + off ∧ off < windowSize ∧ alignedAccess off width ∧
      t = memWrite off v s := by
  unfold busWrite at h
  split at h
  · exact ⟨addr - Config.tfBase, by omega, writeAt_next.mp h⟩
  · cases h

/-! ### Commands -/

/-- The state a command's completion leaves. -/
inductive Completion (s : State) : Instr → State → Prop where
  | nop : Completion s .nop (complete s)
  | keysched : Completion s .keysched
      (complete { s with sched := keySchedule tables s.key, status := s.status.keyed })
  | result (i : Instr) (lo hi : Word) : Completion s i (completeResult lo hi s)
  | block (i : Instr) (b : Quad) : Completion s i (completeBlock b s)

/-- What a command can do: it answers a next state of one of four shapes, by its family (rule R41). -/
theorem exec_cases {i : Instr} {s t : State} (h : exec i s = .next t) : Completion s i t := by
  cases i <;> cases h
  case nop => exact .nop
  case keysched => exact .keysched
  case encrypt => exact .block _ _
  case decrypt => exact .block _ _
  case rndenc r => exact .block _ _
  case rnddec r => exact .block _ _
  case whitenIn => exact .block _ _
  case whitenOut => exact .block _ _
  case polymul => exact .result _ _ _
  case freduceMds => exact .result _ _ _
  case freduceRs => exact .result _ _ _
  case gfmulMds => exact .result _ _ _
  case gfmulRs => exact .result _ _ _
  case qpermQ0 => exact .result _ _ _
  case qpermQ1 => exact .result _ _ _
  case mdsmix => exact .result _ _ _
  case rsmix => exact .result _ _ _
  case gfunc => exact .result _ _ _

/-! ### Steps -/

/-- What the engine's turn can do: idle, or complete the pending command. -/
theorem engineTurn_next {s t : State} (h : engineTurn s = .next t) :
    (s.pend = none ∧ t = s) ∨ ∃ c i, s.pend = some c ∧ decode c = .ok i ∧ exec i s = .next t := by
  unfold engineTurn at h
  split at h
  · cases h
    exact .inl ⟨‹_›, rfl⟩
  · rename_i c hc
    split at h
    · exact .inr ⟨c, _, hc, ‹_›, h⟩
    · cases h

/-- What a step can do: one event of rule R70, or the engine's turn when no event is left. `u` is the state
the event runs in, its own event taken off the list. -/
theorem step_cases {s t : State} (h : step s = .next t) :
    ∃ u, (s.events = [] ∧ u = s ∨ ∃ e es, s.events = e :: es ∧ u = { s with events := es }) ∧
      ((s.events = [] ∨ s.events.head? = some .engine) ∧ engineTurn u = .next t ∨
       (∃ addr width, s.events.head? = some (.hostRead addr width) ∧ busRead addr width u = .next t) ∨
       (∃ addr width v, s.events.head? = some (.hostWrite addr width v) ∧ busWrite addr width v u = .next t) ∨
       (s.events.head? = some .reset ∧ t = applyReset u)) := by
  unfold step nextEvent at h
  split at h
  · rename_i he
    exact ⟨s, .inl ⟨he, rfl⟩, .inl ⟨.inl he, h⟩⟩
  · rename_i e es he
    refine ⟨{ s with events := es }, .inr ⟨e, es, he, rfl⟩, ?_⟩
    simp only [he, List.head?_cons]
    cases e with
    | hostRead addr width => exact .inr (.inl ⟨addr, width, rfl, h⟩)
    | hostWrite addr width v => exact .inr (.inr (.inl ⟨addr, width, v, rfl, h⟩))
    | engine => exact .inl ⟨.inr rfl, h⟩
    | reset => cases h; exact .inr (.inr (.inr ⟨rfl, rfl⟩))

end Sys2Proof.Machine
end

