-- ==== Sys2Proof/Laws/PerInstr.lean ====
section
/-!
SUPPORT. The family `EncodedIsLegal`: for each instruction, the word its encoder gives passes the checks of
30_encoding.md rule R86 when a key is valid, and with no key valid fails them only where the opcode map says
a key is needed.
-/

namespace Sys2Proof.Laws.EncodedIsLegal

open Sys2Proof.Machine

def Statement (i : Instr) : Prop :=
  i.wellFormed = true →
    check (encode i) true = none ∧
    check (encode i) false = if i.needsKey then some .noKey else none

theorem nop : Statement .nop := by unfold Statement; decide
theorem keysched : Statement .keysched := by unfold Statement; decide
theorem encrypt : Statement .encrypt := by unfold Statement; decide
theorem decrypt : Statement .decrypt := by unfold Statement; decide

theorem rndenc (r : Nat) : Statement (.rndenc r) := by
  intro h
  have hr : r < 16 := by simpa [Instr.wellFormed] using h
  interval_cases r <;> decide

theorem rnddec (r : Nat) : Statement (.rnddec r) := by
  intro h
  have hr : r < 16 := by simpa [Instr.wellFormed] using h
  interval_cases r <;> decide

theorem whitenIn : Statement .whitenIn := by unfold Statement; decide
theorem whitenOut : Statement .whitenOut := by unfold Statement; decide
theorem polymul : Statement .polymul := by unfold Statement; decide
theorem freduceMds : Statement .freduceMds := by unfold Statement; decide
theorem freduceRs : Statement .freduceRs := by unfold Statement; decide
theorem gfmulMds : Statement .gfmulMds := by unfold Statement; decide
theorem gfmulRs : Statement .gfmulRs := by unfold Statement; decide
theorem qpermQ0 : Statement .qpermQ0 := by unfold Statement; decide
theorem qpermQ1 : Statement .qpermQ1 := by unfold Statement; decide
theorem mdsmix : Statement .mdsmix := by unfold Statement; decide
theorem rsmix : Statement .rsmix := by unfold Statement; decide
theorem gfunc : Statement .gfunc := by unfold Statement; decide

end Sys2Proof.Laws.EncodedIsLegal
end

