-- ==== Sys2Proof/Tests/Slice0.lean ====
section
/-!
SUPPORT. The model's own tests. Expected values are those of spec/95_test_vectors.md and of the examples in the
rules named; words are written out field by field from rule R80. After them, for each statement with hypotheses,
a theorem `witness_<statement>` with a concrete state and operands that meet them.
-/

namespace Sys2Proof.Tests

open Sys2Proof Sys2Proof.Machine

/-! ### Small states -/

/-- The state after reset with the primitive operands set. -/
def withOps (a b c : Word) : State := { State.reset with opa := a, opb := b, opc := c }

/-- The state after reset with a block in DIN and a schedule. -/
def withBlock (k : Schedule) (b : Quad) : State := { State.reset with din := b, sched := k }

/-- `RES` after a command; 0 if it has no next state. -/
def resOf (o : Host.Outcome State Fault Refusal) : Word × Word :=
  match o with
  | .next t => (t.resHi, t.res)
  | .fault _ => (0, 0)
  | .refused _ => (0, 0)

/-- `DOUT` after a command; zero if it has no next state. -/
def doutOf (o : Host.Outcome State Fault Refusal) : Quad :=
  match o with
  | .next t => t.dout
  | .fault _ => .zero
  | .refused _ => .zero

/-- A schedule with few words set, for tests that need no key. -/
def smallSchedule : Schedule := ⟨0, 0, ((Vector.replicate 40 0).set 0 0xDDC13A91).set 7 0x2CC8430B⟩

/-- An idle engine with a valid key. -/
def keyed : State := { State.reset with status := ⟨false, true, true, false, false, 0⟩ }

/-- An engine with `tf.nop` pending, as acceptance after reset leaves it. -/
def busyNop : State := accept 0 State.reset

/-- STATUS = 0000051E of 95_test_vectors.md section 2.9. -/
def full : State := { State.reset with status := ⟨false, true, true, true, true, 5⟩, errInfo := 0x30 }

/-! ### Syntax, decoder, encoder -/

theorem test_wellFormed_refuses_rndenc_16 : (Instr.rndenc 16).wellFormed = false := by decide

theorem test_wellFormed_refuses_rnddec_16 : (Instr.rnddec 16).wellFormed = false := by decide

/-- Rules R80, R85: RSVD (19 bits), SEL (1), RIDX (4), OPCODE (8), for every constructor. -/
theorem test_decode_every_constructor :
    decode (0#19 ++ 0#1 ++ 0x0#4 ++ 0x00#8) = .ok .nop ∧
    decode (0#19 ++ 0#1 ++ 0x0#4 ++ 0x01#8) = .ok .keysched ∧
    decode (0#19 ++ 0#1 ++ 0x0#4 ++ 0x02#8) = .ok .encrypt ∧
    decode (0#19 ++ 0#1 ++ 0x0#4 ++ 0x03#8) = .ok .decrypt ∧
    decode (0#19 ++ 0#1 ++ 0xF#4 ++ 0x04#8) = .ok (.rndenc 15) ∧
    decode (0#19 ++ 0#1 ++ 0x6#4 ++ 0x05#8) = .ok (.rnddec 6) ∧
    decode (0#19 ++ 0#1 ++ 0x0#4 ++ 0x06#8) = .ok .whitenIn ∧
    decode (0#19 ++ 1#1 ++ 0x0#4 ++ 0x06#8) = .ok .whitenOut ∧
    decode (0#19 ++ 0#1 ++ 0x0#4 ++ 0x10#8) = .ok .polymul ∧
    decode (0#19 ++ 0#1 ++ 0x0#4 ++ 0x11#8) = .ok .freduceMds ∧
    decode (0#19 ++ 1#1 ++ 0x0#4 ++ 0x11#8) = .ok .freduceRs ∧
    decode (0#19 ++ 0#1 ++ 0x0#4 ++ 0x12#8) = .ok .gfmulMds ∧
    decode (0#19 ++ 1#1 ++ 0x0#4 ++ 0x12#8) = .ok .gfmulRs ∧
    decode (0#19 ++ 0#1 ++ 0x0#4 ++ 0x13#8) = .ok .qpermQ0 ∧
    decode (0#19 ++ 1#1 ++ 0x0#4 ++ 0x13#8) = .ok .qpermQ1 ∧
    decode (0#19 ++ 0#1 ++ 0x0#4 ++ 0x14#8) = .ok .mdsmix ∧
    decode (0#19 ++ 0#1 ++ 0x0#4 ++ 0x15#8) = .ok .rsmix ∧
    decode (0#19 ++ 0#1 ++ 0x0#4 ++ 0x16#8) = .ok .gfunc := by decide

theorem test_decode_rejects :
    decode 0x00000007 = .error .illegalOpcode ∧ decode 0x000000FF = .error .illegalOpcode ∧
    decode 0xFFFFFF07 = .error .illegalOpcode ∧ decode 0x00001000 = .error .reservedField ∧
    decode 0x80000016 = .error .reservedField ∧ decode 0x00001004 = .error .reservedField ∧
    decode 0x00000106 = .error .reservedField := by decide

/-- The table's numbering: `tf.rnddec` with RIDX 0, and a word with a bit above the row's. -/
theorem test_decodeTableWord :
    decodeTableWord 32 0x00000005 = some (.rnddec 0) ∧ decodeTableWord 32 0x00001006 = some .whitenOut ∧
    decodeTableWord 32 0x00000017 = none ∧ decodeTableWord 64 0x100000000 = none := by decide

/-- Section 2.8, the rows where the order of the tests shows. -/
theorem test_check_priority :
    check 0xFFFFFF07 false = some .illegalOpcode ∧ check 0x00002002 false = some .reservedField ∧
    check 0x00000002 false = some .noKey ∧ check 0x00000002 true = none ∧
    check 0x00000F04 true = none ∧ check 0x00001004 true = some .reservedField ∧
    check 0x00001011 false = none ∧ check 0x00001014 false = some .reservedField := by decide

/-! ### Field arithmetic, Q networks, mixing, G (sections 2.1 to 2.4) -/

theorem test_polymul : resOf (exec .polymul (withOps 0x12345678 0x9ABCDEF0 0)) = (0x08860E94, 0x5CD25A80) := by
  decide

theorem test_polymul_order : resOf (exec .polymul (withOps 3 0x80000001 0)) = (1, 0x80000003) := by decide

theorem test_freduce_mds : resOf (exec .freduceMds (withOps 0x12345678 0 0)) = (0, 0x12340006) := by decide

theorem test_freduce_rs : resOf (exec .freduceRs (withOps 0x12345678 0 0)) = (0, 0x1234000C) := by decide

/-- Bits 31:8 of the operands are ignored (section 2.1). -/
theorem test_gfmul_mds : resOf (exec .gfmulMds (withOps 0x12345602 0x80 0)) = (0, 0x69) := by decide

theorem test_gfmul_rs : resOf (exec .gfmulRs (withOps 0xEF 0x02 0)) = (0, 0x93) := by decide

theorem test_qperm_q0 : resOf (exec .qpermQ0 (withOps 0x101 0 0)) = (0, 0x67) := by decide

theorem test_qperm_q1 : resOf (exec .qpermQ1 (withOps 0x80 0 0)) = (0, 0x66) := by decide

/-- Rule R141: the beginnings of the two byte permutations. -/
theorem test_q_tables_begin :
    [0, 1, 2, 3].map (q tables .q0) = [0xA9, 0x67, 0xB3, 0xE8] ∧
    [0, 1, 2, 3].map (q tables .q1) = [0x75, 0xF3, 0xC6, 0xF4] := by decide

theorem test_tables_valid : Tables.Valid tables := by decide

theorem test_mdsmix : resOf (exec .mdsmix (withOps 0x12345678 0 0)) = (0, 0x8D328B3F) := by decide +kernel

theorem test_rsmix : resOf (exec .rsmix (withOps 0x00010203 0x04050607 0)) = (0, 0x2F062AD7) := by
  decide +kernel

theorem test_gfunc : resOf (exec .gfunc (withOps 0x12345678 0x9ABCDEF0 0x0F1E2D3C)) = (0, 0xF822E4AD) := by
  decide +kernel

/-! ### Key schedule, rounds and blocks (sections 2.5 to 2.7) -/

/-- The S-box key words and the first and last pair of subkeys of key 00..0F. -/
theorem test_keysched_key_00_0F :
    sboxKey0 tables exampleKey = 0x2F062AD7 ∧ sboxKey1 tables exampleKey = 0xF204791A ∧
    roundSubkey tables exampleKey 0 = 0xDDC13A91 ∧ roundSubkey tables exampleKey 1 = 0xD77B904F ∧
    roundSubkey tables exampleKey 38 = 0xB174F225 ∧ roundSubkey tables exampleKey 39 = 0x49D58572 := by
  decide +kernel

/-- `tf.keysched` sets KEYVALID, DONE and clears BUSY (Program 1: STATUS = 00000006). -/
theorem test_keysched_status :
    (match exec .keysched (accept 1 State.reset) with
      | .next t => (t.status.toWord, t.pend)
      | .fault _ => (0, none)
      | .refused _ => (0, none)) = (6, none) := by decide +kernel

/-- Zero key, r = 7, DIN = 1 2 3 4 with the two subkeys of round 7 (KS 22, 23 of section 2.5). -/
def zeroKeyRound7 : Schedule :=
  ⟨0, 0, ((Vector.replicate 40 0).set 22 0xCBCE1C9C).set 23 0xAD3DEEF8⟩

theorem test_rndenc :
    doutOf (exec (.rndenc 7) (withBlock zeroKeyRound7 ⟨1, 2, 3, 4⟩)) = ⟨0x499AC8DA, 0xA35374E9, 1, 2⟩ := by
  decide +kernel

theorem test_rnddec :
    doutOf (exec (.rnddec 7) (withBlock zeroKeyRound7 ⟨1, 2, 3, 4⟩)) = ⟨3, 4, 0x118A2AFC, 0x64A86C80⟩ := by
  decide +kernel

/-- KS(0) and KS(7) of key 00..0F on the block of rule R231's example. -/
theorem test_whiten_in :
    (doutOf (exec .whitenIn (withBlock smallSchedule ⟨0x00112233, 0x44556677, 0x8899AABB, 0xCCDDEEFF⟩))).w0 =
      0xDDD018A2 := by decide

theorem test_whiten_out :
    (doutOf (exec .whitenOut (withBlock smallSchedule ⟨0x00112233, 0x44556677, 0x8899AABB, 0xCCDDEEFF⟩))).w3 =
      0xE015ADF4 := by decide

/-- The zero-key, zero-block scenario (section 1, T5): 16 rounds, both directions. -/
theorem test_encrypt_zero :
    doutOf (exec .encrypt (withBlock (keySchedule tables .zero) .zero)) =
      ⟨0x4C229D4C, 0xEB2D0EBB, 0xA46644E1, 0x4D55BF2A⟩ := by decide +kernel

theorem test_decrypt_zero :
    doutOf (exec .decrypt (withBlock (keySchedule tables .zero) .zero)) =
      ⟨0x8EE078CD, 0x7FC837F0, 0xFFB4847A, 0x8834823F⟩ := by decide +kernel

/-! ### The window and the errors (section 2.9) -/

theorem test_reset_reads :
    memRead 0x000 State.reset = 0x54463132 ∧ memRead 0x054 State.reset = 0 ∧ memRead 0x1FC State.reset = 0 ∧
    memRead 0x008 State.reset = 0 := by decide

theorem test_bad_access :
    memRead 0x008 (memWrite 0x000 1 State.reset) = 0x00000508 ∧
    memRead 0x00C (memWrite 0x054 1 State.reset) = 0x00000054 ∧
    memRead 0x00C (memWrite 0x100 1 State.reset) = 0x00000100 ∧
    memRead 0x040 (memWrite 0x040 0x12345678 State.reset) = 0x12345678 := by decide

theorem test_status_write_1_to_clear :
    memRead 0x008 full = 0x0000051E ∧ memRead 0x008 (memWrite 0x008 0xFFFFFFFF full) = 0x00000004 ∧
    memRead 0x00C (memWrite 0x008 0xFFFFFFFF full) = 0 ∧
    memRead 0x008 (memWrite 0x008 0x00000002 full) = 0x0000051C ∧
    memRead 0x008 (memWrite 0x008 0x00000010 full) = 0x0000050E := by decide

theorem test_write_while_busy :
    memRead 0x008 (memWrite 0x030 1 busyNop) = 0x00000409 ∧ memRead 0x00C (memWrite 0x030 1 busyNop) = 0x30 ∧
    memRead 0x00C (memWrite 0x004 7 busyNop) = 0x04 ∧ (memWrite 0x008 2 busyNop).pend = some 0 := by decide

/-- Program 3's first writes: E_NO_KEY, then an illegal opcode that only sets EOVF, then `clrst`. -/
theorem test_first_error_wins :
    memRead 0x008 (memWrite 0x004 2 State.reset) = 0x00000308 ∧
    memRead 0x008 (memWrite 0x004 7 (memWrite 0x004 2 State.reset)) = 0x00000318 ∧
    memRead 0x00C (memWrite 0x004 7 (memWrite 0x004 2 State.reset)) = 0x00000002 ∧
    memRead 0x008 (memWrite 0x008 0x1A (memWrite 0x004 7 (memWrite 0x004 2 State.reset))) = 0 := by decide

/-- Rule R105's example: after reset, `run tf.nop` leaves STATUS = 00000002 and CMD = 0. -/
theorem test_nop :
    (match exec .nop (memWrite 0x004 0 State.reset) with
      | .next t => (memRead 0x008 t, memRead 0x004 t)
      | .fault _ => (0, 1)
      | .refused _ => (0, 1)) = (2, 0) := by decide

/-! ### Steps and the host's notation -/

/-- A placed word runs in the very next step: `tf.mdsmix` of 0 with nothing else set. -/
theorem test_step_runs_placed_word :
    step (State.reset.withFetchWord 32 0x00000014) = .next { State.reset with
      cmd := 0x14, status := ⟨false, true, false, false, false, 0⟩ } := by
  show Host.Outcome.next _ = Host.Outcome.next _
  congr 1

theorem test_step_refuses_placed_illegal_word :
    step (State.reset.withFetchWord 32 0x00000017) = .refused .pendingNotACommand := rfl

theorem test_step_idle : step State.reset = .next State.reset := rfl

/-- A bus write and a bus read through `step`, at addresses in the window. -/
theorem test_step_bus_write :
    step { State.reset with events := [.hostWrite (Config.tfBase + 0x040) 4 0x12345678] } =
      .next { State.reset with opa := 0x12345678 } := by
  show busWrite _ _ _ _ = _
  rw [busWrite_base]
  rfl

theorem test_step_bus_read :
    step { full with events := [.hostRead (Config.tfBase + 0x008) 4] } =
      .next { full with replies := [0x0000051E] } := by
  show busRead _ _ _ = _
  rw [busRead_base]
  rfl

/-- Rule R91's loop arithmetic of Programs 2 and 5, one operation each. -/
theorem test_host_operations :
    (∃ z, hostOp (.addi 1 1 0xFFFFFF00) ⟨⟨(Vector.replicate 16 0).set 1 0x05, 0⟩, State.reset⟩ = .next z ∧
      z.host.h[1] = 0xFFFFFF05) ∧
    (∃ z, hostOp (.bnei 1 0x1004 9) ⟨⟨(Vector.replicate 16 0).set 1 0x1004, 4⟩, State.reset⟩ = .next z ∧
      z.host.next = 5) ∧
    (∃ z, hostOp (.rd 3 0x000) System.start = .next z ∧ z.host.h[3] = 0x54463132) ∧
    hostOp (.rd 3 0x002) System.start = .refused .misalignedAccess ∧
    hostOp (.wri 0x200 1) System.start = .refused .outsideWindow :=
  ⟨⟨_, rfl, by decide⟩, ⟨_, rfl, by decide⟩, ⟨_, rfl, by decide⟩, rfl, rfl⟩

/-! ### Witnesses: the hypotheses of each statement are met -/

theorem engineInv_reset : EngineInv State.reset := by
  constructor
  case cmd_legal => decide
  all_goals simp [State.reset, Status.reset]

theorem engineInv_busyNop : EngineInv busyNop := by
  constructor
  case cmd_legal => decide
  case pend_legal => simp only [busyNop, accept, Option.some.injEq, forall_eq']; decide
  all_goals simp [busyNop, accept, State.reset, Status.reset, Status.accepted]

theorem witness_DecodeOfEncode : (Instr.rndenc 15).wellFormed = true := by decide

theorem witness_EncodeOfDecode : decode 0x00000F05 = .ok (.rnddec 15) := by decide

theorem witness_IllegalAndReservedEncodings :
    State.reset.status.busy = false ∧
    (0x07#8 ≤ opcodeOf 0x07#32 ∧ opcodeOf 0x07#32 ≤ 0x0F#8) ∧ opcodeOf 0x0F#32 ≤ 0x0F#8 ∧
    0x17#8 ≤ opcodeOf 0x17#32 ∧ 0x17#8 ≤ opcodeOf 0xFF#32 ∧
    (opcodeOf 0x2006#32 ≤ 0x06#8 ∧ rsvdOf 0x2006#32 ≠ 0) ∧
    ((0x10#8 ≤ opcodeOf 0x80000016#32 ∧ opcodeOf 0x80000016#32 ≤ 0x16#8) ∧ rsvdOf 0x80000016#32 ≠ 0) ∧
    (opcodeOf 0x106#32 ∉ [0x04#8, 0x05#8] ∧ ridxOf 0x106#32 ≠ 0) ∧
    (opcodeOf 0x1004#32 ∉ [0x06#8, 0x11#8, 0x12#8, 0x13#8] ∧ selOf 0x1004#32 = true) ∧
    decode 0 = .ok .nop ∧ ∀ s, exec .nop s = .next (complete s) :=
  ⟨rfl, by decide, by decide, by decide, by decide, by decide, by decide, by decide, by decide, rfl, fun _ => rfl⟩

theorem witness_StepRunsThePendingCommand :
    busyNop.pend = some 0 ∧ decode 0 = .ok .nop ∧ busyNop.events = [] ∧
    { busyNop with events := [.engine] }.events = .engine :: [] ∧ Instr.gfunc.wellFormed = true :=
  ⟨rfl, rfl, rfl, rfl, rfl⟩

theorem witness_StepRunsOneEvent :
    { busyNop with events := [.hostRead 0 4] }.events = .hostRead 0 4 :: [] ∧
    { busyNop with events := [.hostWrite 0 4 7] }.events = .hostWrite 0 4 7 :: [] ∧
    { busyNop with events := [.reset] }.events = .reset :: [] ∧
    ({ State.reset with events := [.engine] }.events = .engine :: [] ∧ State.reset.pend = none) ∧
    State.reset.events = [] :=
  ⟨rfl, rfl, rfl, ⟨rfl, rfl⟩, rfl⟩

theorem witness_ResetClearsEveryRegister : { full with events := [.reset] }.events = .reset :: [] := rfl

theorem witness_ResetAbandonsThePendingCommand :
    { busyNop with events := [.reset] }.events = .reset :: [] ∧ { busyNop with events := [.reset] }.pend = some 0 :=
  ⟨rfl, rfl⟩

/-- The reserved ranges' boundaries. -/
theorem witness_WindowReadsTheRegisterMap :
    ∀ off ∈ [0x054, 0x07C, 0x088, 0x0FC, 0x1A0, 0x1FC],
      0x054 ≤ off ∧ off ≤ 0x07C ∨ 0x088 ≤ off ∧ off ≤ 0x0FC ∨ 0x1A0 ≤ off ∧ off ≤ 0x1FC := by decide

theorem witness_ReadsHaveNoSideEffect :
    { busyNop with events := [.hostRead (Config.tfBase + 0x1FC) 4] }.events =
      .hostRead (Config.tfBase + 0x1FC) 4 :: [] ∧
    (0x1FC < 0x200 ∧ 0x1FC % 4 = 0) ∧ (Reg.ks 39).offset = 0x19C ∧ ∀ r : Reg, r.offset ≠ 0x1FC :=
  ⟨rfl, by decide, rfl, fun r h => by cases r <;> simp only [Reg.offset] at h <;> omega⟩

/-- One state for each of the five cases. -/
theorem witness_WritesFollowTheFiveCases :
    (∀ off v, { State.reset with events := [.hostWrite (Config.tfBase + off) 4 v] }.events =
      .hostWrite (Config.tfBase + off) 4 v :: []) ∧
    busyNop.status.busy = true ∧ State.reset.status.busy = false ∧
    (∀ r ∈ [Reg.key 0, .din 3, .opc], r.isRW = true ∧ r.offset < 0x200 ∧ r.offset % 4 = 0) ∧
    (∀ r : Reg, r.offset = 0x19C → r.isRW = false) ∧ (∀ r : Reg, r.offset = 0x1FC → r.isRW = false) := by
  refine ⟨fun _ _ => rfl, rfl, rfl, by decide, ?_, ?_⟩
  · intro r h
    cases r <;> simp only [Reg.offset] at h <;> first | rfl | omega
  · intro r h
    cases r <;> simp only [Reg.offset] at h <;> first | rfl | omega

/-- Below the window there is an address exactly when `TF_BASE` is not 0, which is open (log entry 1): the first address
above the window meets that clause whatever `TF_BASE` is. -/
theorem witness_OtherAccessesAreRefused :
    (0x1FE < 0x200 ∧ 0x1FE % 4 ≠ 0) ∧ (0x1FC < 0x200 ∧ 2 ≠ 4) ∧
    (∃ addr, (addr < Config.tfBase ∨ Config.tfBase + 0x200 ≤ addr) ∧
      { State.reset with events := [.hostRead addr 4] }.events = .hostRead addr 4 :: []) ∧
    (0 < Config.tfBase → Config.tfBase - 1 < Config.tfBase) :=
  ⟨by decide, by decide, ⟨Config.tfBase + 0x200, .inr (Nat.le_refl _), rfl⟩, fun h => Nat.sub_lt h Nat.one_pos⟩

theorem witness_StatusRegister : EngineInv State.reset ∧ State.reset.status.err = false := ⟨engineInv_reset, rfl⟩

/-- The boundaries of every range of read-only and reserved offsets. -/
theorem witness_ReadOnlyWritesAreBadAccess :
    State.reset.status.busy = false ∧
    ∀ off ∈ [0x000, 0x00C, 0x030, 0x03C, 0x04C, 0x050, 0x054, 0x07C, 0x080, 0x084, 0x088, 0x0FC, 0x100, 0x19C,
      0x1A0, 0x1FC], off % 4 = 0 ∧
      (off = 0x000 ∨ off = 0x00C ∨ 0x030 ≤ off ∧ off ≤ 0x03C ∨ off = 0x04C ∨ off = 0x050 ∨
        0x054 ≤ off ∧ off ≤ 0x07C ∨ off = 0x080 ∨ off = 0x084 ∨ 0x088 ≤ off ∧ off ≤ 0x0FC ∨
        0x100 ≤ off ∧ off ≤ 0x19C ∨ 0x1A0 ≤ off ∧ off ≤ 0x1FC) := by decide

theorem witness_FirstErrorIsRecorded : State.reset.status.err = false ∧ full.status.err = true := ⟨rfl, rfl⟩

theorem witness_ErrorsArePrecise :
    busyNop.status.busy = true ∧ check 2 State.reset.status.keyValid ≠ none ∧
    ∀ r : Reg, r.offset = 0x100 → r.isRW = false := by
  refine ⟨rfl, by decide, ?_⟩
  intro r h
  cases r <;> simp only [Reg.offset] at h <;> first | rfl | omega

theorem witness_PresentationAcceptsOrRejects :
    State.reset.status.busy = false ∧ busyNop.status.busy = true ∧ check 0x16 State.reset.status.keyValid = none ∧
    check 0x17 State.reset.status.keyValid = some .illegalOpcode := by decide

theorem witness_CompletionNeverFails :
    busyNop.pend = some 0 ∧ check 0 busyNop.status.keyValid = none := by decide

theorem witness_AcceptedCommandCompletes :
    Safe { busyNop with events := [.hostRead (Config.tfBase + 0x008) 4, .hostWrite (Config.tfBase + 0x020) 4 5] } ∧
    busyNop.pend = some 0 := by
  refine ⟨⟨⟨engineInv_busyNop.1, engineInv_busyNop.2, engineInv_busyNop.3, engineInv_busyNop.4,
    engineInv_busyNop.5, engineInv_busyNop.6, engineInv_busyNop.7, engineInv_busyNop.8,
    engineInv_busyNop.9⟩, ?_⟩, rfl⟩
  intro e he
  simp only [List.mem_cons, List.not_mem_nil, or_false] at he
  rcases he with rfl | rfl
  · exact ⟨0x008, rfl, by decide, by decide⟩
  · exact ⟨0x020, rfl, by decide, by decide⟩

/-- The state of `witness_AcceptedCommandCompletes` meets this statement's hypotheses too. -/
theorem witness_OperandsAreFrozenWhilePending :
    busyNop.status.busy = true ∧
    ∀ e ∈ [Event.hostRead (Config.tfBase + 0x008) 4, .hostWrite (Config.tfBase + 0x020) 4 5],
      (∃ a w, e = .hostRead a w) ∨ ∃ a w v, e = .hostWrite a w v := by
  refine ⟨rfl, ?_⟩
  intro e he
  simp only [List.mem_cons, List.not_mem_nil, or_false] at he
  rcases he with rfl | rfl
  · exact .inl ⟨_, _, rfl⟩
  · exact .inr ⟨_, _, _, rfl⟩

theorem witness_WriteRacesWithCompletion :
    EngineInv busyNop ∧ busyNop.pend = some 0 ∧ busyNop.status.err = false ∧ busyNop.events = [] :=
  ⟨engineInv_busyNop, rfl, rfl, rfl⟩

theorem witness_AnyNumberOfBusyPolls :
    ∃ s : State, EngineInv s ∧ s.pend = some 0 ∧ s.replies = [] ∧
      s.events = List.replicate 3 (.hostRead (Config.tfBase + 0x008) 4)
        ++ [.engine, .hostRead (Config.tfBase + 0x008) 4] :=
  ⟨{ busyNop with events := List.replicate 3 (.hostRead (Config.tfBase + 0x008) 4)
        ++ [.engine, .hostRead (Config.tfBase + 0x008) 4] }, ⟨engineInv_busyNop.1, engineInv_busyNop.2, engineInv_busyNop.3,
    engineInv_busyNop.4, engineInv_busyNop.5, engineInv_busyNop.6, engineInv_busyNop.7,
    engineInv_busyNop.8, engineInv_busyNop.9⟩, rfl, rfl, rfl⟩

/-- It also meets the hypotheses of `SafeRunsNeverStop`, `OnlyTheHostWritesOperands` and
`OnlyCompletionWritesResults`. -/
theorem witness_StepKeepsTheInvariant :
    EngineInv State.reset ∧ step State.reset = .next State.reset ∧ Safe State.reset :=
  ⟨engineInv_reset, rfl, engineInv_reset, fun e he => by cases he⟩

theorem witness_KeyValidRule :
    (∃ t, step { keyed with events := [.reset] } = .next t ∧ t.status.keyValid ≠ keyed.status.keyValid) ∧
    (∃ t, step (accept 1 State.reset) = .next t ∧ t.status.keyValid ≠ State.reset.status.keyValid) ∧
    (Instr.rndenc 0).wellFormed = true ∧ State.reset.status.busy = false ∧
    State.reset.status.keyValid = false ∧ EngineInv State.reset :=
  ⟨⟨_, rfl, by decide⟩, ⟨_, rfl, by decide⟩, rfl, rfl, rfl, engineInv_reset⟩

theorem witness_OnlyKeyschedWritesTheSchedule :
    (∃ t, step { withBlock smallSchedule .zero with events := [.reset] } = .next t ∧
      t.sched ≠ (withBlock smallSchedule .zero).sched) ∧
    (∃ t, step (accept 1 { State.reset with key := exampleKey }) = .next t ∧ t.sched ≠ State.reset.sched) := by
  refine ⟨⟨_, rfl, by decide⟩, ⟨_, rfl, ?_⟩⟩
  intro h
  exact absurd (congrArg Schedule.skey0 h) (by decide +kernel)

/-- Two states that differ in a register POLYMUL does not read. -/
theorem witness_ReadWriteMatrix :
    Instr.polymul.wellFormed = true ∧ AgreeOnReads .polymul (withOps 1 2 3) (withOps 1 2 4) ∧
    AgreeOnReads .gfmulMds (withOps 0x101 2 3) (withOps 1 0x202 3) ∧
    check 0 State.reset.status.keyValid = none := by
  refine ⟨rfl, ?_, ?_, by decide⟩ <;>
  · intro p hp
    simp only [Machine.Instr.reads, List.mem_cons, List.not_mem_nil, or_false] at hp
    rcases hp with rfl | rfl <;> decide

theorem witness_FieldReduceIsTheRemainder :
    Modulus.Valid 0x169 ∧ Modulus.Valid 0x100 ∧ Modulus.Valid 0x1FF ∧ 0xFFFF#64 < 0x10000#64 ∧
    0xFF#64 < 0x100#64 := by decide

theorem witness_FieldMulIsTheFieldProduct : Modulus.Valid 0x14D := by decide

/-- Bounds of `PolyMulIsThePolynomialProduct`, of `EveryMnemonicHasItsWord`, `RndencCommand` and `RnddecCommand`, and
of `FreduceCommands`. -/
theorem witness_bounds : 63 < 64 ∧ 15 < 16 ∧ 0xFF#32 < 0x100#32 := by decide

/-- For the statements of rules R105, R125 to R127, R144, R167, R168, R184, R196, R215, R216, R231, R233 and R234: a word
that each command's `ReservedFieldError` clause speaks of, with idle states that have and lack a key and a busy one. -/
theorem witness_command_errors :
    State.reset.status.busy = false ∧ busyNop.status.busy = true ∧ keyed.status.busy = false ∧
    keyed.status.keyValid = true ∧ State.reset.status.keyValid = false ∧
    (∀ op ∈ [0x00#8, 0x01#8, 0x02#8, 0x03#8, 0x10#8, 0x14#8, 0x15#8, 0x16#8],
      opcodeOf (0x100#32 ||| op.setWidth 32) = op ∧ (0x100#32 ||| op.setWidth 32).extractLsb' 8 24 ≠ 0) ∧
    (∀ op ∈ [0x06#8, 0x11#8, 0x12#8, 0x13#8],
      opcodeOf (0x100#32 ||| op.setWidth 32) = op ∧ ridxOf (0x100#32 ||| op.setWidth 32) ≠ 0) ∧
    (∀ op ∈ [0x04#8, 0x05#8],
      opcodeOf (0x1000#32 ||| op.setWidth 32) = op ∧ selOf (0x1000#32 ||| op.setWidth 32) = true) := by decide

theorem witness_QNetworksAreBijections : tables.q0.Valid ∧ tables.q1.Valid := by decide

/-- The least product of degree 8 or more that R127 names, and one below that bound. -/
theorem witness_GfmulCommands :
    0x100#64 ≤ polyMul ((0x02#8).setWidth 32) ((0x80#8).setWidth 32) ∧
    polyMul ((0x01#8).setWidth 32) ((0xFF#8).setWidth 32) < 0x100#64 := by decide

/-- Two second operands that differ outside the lane. -/
theorem witness_GfuncCommand : byte 0x01 1 = byte 0x02 1 ∧ byte 0x03 1 = byte 0x04 1 := by decide

theorem witness_ScheduleOutlivesTheKey :
    keyed.status.busy = false ∧ Instr.encrypt.needsKey = true := by decide

theorem witness_RndencCommand : keyed.din = .zero ∧ 15 < 16 := by decide

theorem witness_WaitAndCopyBlock :
    ((wait 0).drop System.start.host.next).take 3 = wait System.start.host.next ∧
    (cpblk.drop System.start.host.next).take 8 = cpblk ∧ System.start.engine.status.busy = false ∧
    (System.mk System.start.host busyNop).engine.status.busy = true := by decide

end Sys2Proof.Tests
end

section
/-!
SUPPORT. The 16-byte string of a block or key and the four words that hold it (rules R12, R26, R28, R65).
-/

namespace Sys2Proof.Machine

/-- Word `i` of a packed string holds bytes `4i..4i+3`, the first the most significant. -/
theorem packQuad_get (m : Vector Byte 16) (i : Fin 4) :
    (packQuad m).get i = word m[4 * i.val] m[4 * i.val + 1] m[4 * i.val + 2] m[4 * i.val + 3] := by
  fin_cases i <;> rfl

theorem quadByte_four_mul_add (q : Quad) (i : Fin 4) {k : Nat} (hk : k < 4) :
    quadByte q ⟨4 * i.val + k, by omega⟩ = byte (q.get i) (3 - k) := by
  have hi : (⟨(4 * i.val + k) / 4, by omega⟩ : Fin 4) = i := Fin.ext (by simp only; omega)
  have hm : (4 * i.val + k) % 4 = k := by omega
  simp only [quadByte, hi, hm]

/-- Unpacking undoes packing. -/
theorem quadByte_packQuad (m : Vector Byte 16) (n : Fin 16) : quadByte (packQuad m) n = m[n] := by
  obtain ⟨i, k, hk, rfl⟩ : ∃ (i : Fin 4) (k : Nat) (hk : k < 4), n = ⟨4 * i.val + k, by omega⟩ :=
    ⟨⟨n / 4, by omega⟩, n % 4, by omega, Fin.ext (Nat.div_add_mod n.val 4).symm⟩
  rw [quadByte_four_mul_add _ i hk, packQuad_get]
  interval_cases k
  · exact byte_word_3 ..
  · exact byte_word_2 ..
  · exact byte_word_1 ..
  · exact byte_word_0 ..

/-- Packing undoes unpacking. -/
theorem packQuad_quadByte (x : Quad) : packQuad (Vector.ofFn (quadByte x)) = x := by
  refine Quad.ext_get fun i => ?_
  have h0 : quadByte x ⟨4 * i.val, by omega⟩ = byte (x.get i) 3 := quadByte_four_mul_add x i (k := 0) (by omega)
  rw [packQuad_get]
  simp only [Vector.getElem_ofFn, h0, quadByte_four_mul_add x i (by omega : 1 < 4),
    quadByte_four_mul_add x i (by omega : 2 < 4), quadByte_four_mul_add x i (by omega : 3 < 4)]
  exact word_bytes (x.get i)

/-- Settles O45: byte `4i+k` of the string is byte `3-k` of word `i`, in both directions. -/
theorem bytePackingRoundTrip : Obligations.BytePackingRoundTrip := by
  refine ⟨fun m i => ⟨packQuad_get m i, ?_, ?_⟩, quadByte_packQuad, packQuad_quadByte, byte_word_3⟩
  · rw [packQuad_get]
    exact byte_word_3 ..
  · rw [packQuad_get]
    exact byte_word_0 ..

end Sys2Proof.Machine
end

section
/-!
SUPPORT. Bit vectors as polynomials over GF(2) (rule R120): XOR is their sum and `polyMul` their product, so
the laws of `polyMul` are those of a commutative ring.
-/

namespace Sys2Proof.Machine

open Polynomial

/-- The polynomial whose coefficient of `X^i` is bit `i`. -/
noncomputable def bitPoly {w : Nat} (x : BitVec w) : (ZMod 2)[X] :=
  ∑ i ∈ Finset.range w, if x.getLsbD i then X ^ i else 0

theorem coeff_bitPoly {w : Nat} (x : BitVec w) (k : Nat) :
    (bitPoly x).coeff k = if x.getLsbD k then 1 else 0 := by
  have hterm : ∀ i, (if x.getLsbD i then X ^ i else 0 : (ZMod 2)[X]).coeff k =
      if k = i then (if x.getLsbD k then 1 else 0) else 0 := by
    intro i
    rcases eq_or_ne k i with rfl | h
    · split <;> simp
    · split <;> simp [coeff_X_pow, h]
  simp only [bitPoly, finsetSum_coeff, hterm, Finset.sum_ite_eq, Finset.mem_range]
  by_cases hk : k < w
  · rw [if_pos hk]
  · simp [hk, BitVec.getLsbD_of_ge x k (by omega)]

theorem bitPoly_injective {w : Nat} : Function.Injective (bitPoly (w := w)) := by
  intro x y h
  refine BitVec.eq_of_getLsbD_eq fun k _ => ?_
  have hk := congrArg (coeff · k) h
  simp only [coeff_bitPoly] at hk
  cases hx : x.getLsbD k <;> cases hy : y.getLsbD k <;> simp_all

theorem bitPoly_zero {w : Nat} : bitPoly (0 : BitVec w) = 0 := by
  ext k
  simp [coeff_bitPoly]

theorem bitPoly_xor {w : Nat} (x y : BitVec w) : bitPoly (x ^^^ y) = bitPoly x + bitPoly y := by
  ext k
  rw [coeff_add, coeff_bitPoly, coeff_bitPoly, coeff_bitPoly, BitVec.getLsbD_xor]
  cases x.getLsbD k <;> cases y.getLsbD k <;> decide

/-- A shifted word does not leave the 64 bits, so the shift is the product with `X^i`. -/
theorem bitPoly_setWidth_shiftLeft (b : Word) {i : Nat} (hi : i ≤ 32) :
    bitPoly (b.setWidth 64 <<< i) = X ^ i * bitPoly b := by
  ext k
  rw [coeff_X_pow_mul', coeff_bitPoly, coeff_bitPoly, BitVec.getLsbD_shiftLeft, BitVec.getLsbD_setWidth]
  by_cases hik : i ≤ k
  · by_cases hk : k < 64
    · simp [hk, hik, show k - i < 64 by omega, Nat.not_lt.mpr hik]
    · simp [hk, BitVec.getLsbD_of_ge b (k - i) (by omega)]
  · simp [hik, Nat.not_le.mp hik]

/-- The bits above `n` are clear when and only when the degree is at most `n`. -/
theorem natDegree_bitPoly_le_iff {w : Nat} {x : BitVec w} {n : Nat} :
    (bitPoly x).natDegree ≤ n ↔ ∀ k, n < k → x.getLsbD k = false := by
  simp [natDegree_le_iff_coeff_eq_zero, coeff_bitPoly]

/-- `polyMul` is the product of polynomials. -/
theorem bitPoly_polyMul (a b : Word) : bitPoly (polyMul a b) = bitPoly a * bitPoly b := by
  have hrun : ∀ n ≤ 32, bitPoly ((List.range n).foldl
      (fun p i => if a.getLsbD i then p ^^^ (b.setWidth 64 <<< i) else p) (0 : DWord)) =
      (∑ i ∈ Finset.range n, if a.getLsbD i then X ^ i else 0) * bitPoly b := by
    intro n hn
    induction n with
    | zero => simpa using bitPoly_zero (w := 64)
    | succ n ih =>
      rw [List.range_succ, List.foldl_append, Finset.sum_range_succ, add_mul, ← ih (by omega)]
      simp only [List.foldl_cons, List.foldl_nil]
      split
      · rw [bitPoly_xor, bitPoly_setWidth_shiftLeft b (by omega)]
      · rw [zero_mul, add_zero]
  exact hrun 32 le_rfl

theorem polyMul_comm (a b : Word) : polyMul a b = polyMul b a :=
  bitPoly_injective (by rw [bitPoly_polyMul, bitPoly_polyMul, mul_comm])

theorem polyMul_xor_left (a b c : Word) : polyMul (a ^^^ b) c = polyMul a c ^^^ polyMul b c :=
  bitPoly_injective (by simp only [bitPoly_polyMul, bitPoly_xor, add_mul])

theorem polyMul_zero_left (b : Word) : polyMul 0 b = 0 :=
  bitPoly_injective (by rw [bitPoly_polyMul, bitPoly_zero, zero_mul, bitPoly_zero])

theorem eq_polyMul_zero_xor (t : DWord) (b : Word) : t = polyMul 0 b ^^^ t := by
  rw [polyMul_zero_left]
  exact BitVec.zero_xor.symm

theorem bitPoly_twoPow {i : Nat} (hi : i < 32) : bitPoly (BitVec.twoPow 32 i) = X ^ i := by
  ext k
  rw [coeff_bitPoly, coeff_X_pow, BitVec.getLsbD_twoPow]
  simp [hi, eq_comm]

theorem polyMul_twoPow_left (b : Word) {i : Nat} (hi : i < 32) :
    polyMul (BitVec.twoPow 32 i) b = b.setWidth 64 <<< i :=
  bitPoly_injective (by rw [bitPoly_polyMul, bitPoly_twoPow hi, bitPoly_setWidth_shiftLeft b hi.le])

/-- The product of two bytes has degree at most 14. -/
theorem getLsbD_polyMul_bytes (a b : Byte) {k : Nat} (hk : 15 ≤ k) :
    (polyMul (a.setWidth 32) (b.setWidth 32)).getLsbD k = false := by
  have hbyte : ∀ x : Byte, (bitPoly (x.setWidth 32)).natDegree ≤ 7 := fun x =>
    natDegree_bitPoly_le_iff.mpr fun j hj => by simp [BitVec.getLsbD_setWidth, BitVec.getLsbD_of_ge x j (by omega)]
  have hdeg : (bitPoly (polyMul (a.setWidth 32) (b.setWidth 32))).natDegree ≤ 14 := by
    rw [bitPoly_polyMul]
    exact natDegree_mul_le_of_le (hbyte a) (hbyte b)
  exact natDegree_bitPoly_le_iff.mp hdeg k hk

end Sys2Proof.Machine
end

section
/-!
SUPPORT. Field reduction (rules R122, R123): each iteration adds a multiple of the modulus and clears the tested bit.
-/

namespace Sys2Proof.Machine

theorem validModulus_getLsbD_eight {m : Word} (hm : Modulus.Valid m) : m.getLsbD 8 = true := by
  obtain ⟨hlo, hhi⟩ := hm
  have hdiv : m.toNat / 2 ^ 8 = 1 := by bv_omega
  rw [← BitVec.testBit_toNat, Nat.testBit_eq_decide_div_mod_eq, hdiv]
  rfl

theorem validModulus_getLsbD_above {m : Word} (hm : Modulus.Valid m) {k : Nat} (hk : 8 < k) :
    m.getLsbD k = false := by
  obtain ⟨-, hhi⟩ := hm
  have hlt : m.toNat < 2 ^ 9 := by bv_omega
  exact Nat.testBit_lt_two_pow (hlt.trans_le (Nat.pow_le_pow_right (by omega) hk))

/-- At and above the bit that iteration `i` tests, the shifted modulus has that one bit. -/
theorem getLsbD_alignedModulus {m : Word} (hm : Modulus.Valid m) {i k : Nat} (hi : i < 8) (hk : 15 - i ≤ k) :
    (m.setWidth 64 <<< (7 - i)).getLsbD k = decide (k = 15 - i) := by
  rw [BitVec.getLsbD_shiftLeft, BitVec.getLsbD_setWidth]
  rcases hk.eq_or_lt with rfl | hlt
  · rw [show 15 - i - (7 - i) = 8 by omega, validModulus_getLsbD_eight hm]
    simp
    omega
  · rw [validModulus_getLsbD_above hm (by omega)]
    simp [hlt.ne']

/-- Rule R123: an iteration clears the bit it tests. -/
theorem reduceStep_clears {m : Word} (hm : Modulus.Valid m) (t : DWord) {i : Nat} (hi : i < 8) :
    (reduceStep (t, m.setWidth 64 <<< (7 - i)) i).1.getLsbD (15 - i) = false := by
  rw [reduceStep]
  split
  · next ht => rw [BitVec.getLsbD_xor, ht, getLsbD_alignedModulus hm hi le_rfl, decide_eq_true rfl]; rfl
  · next ht => exact Bool.eq_false_of_not_eq_true ht

/-- Rule R123: an iteration leaves the bits above the one it tests. -/
theorem reduceStep_above {m : Word} (hm : Modulus.Valid m) (t : DWord) {i k : Nat} (hi : i < 8) (hk : 15 - i < k) :
    (reduceStep (t, m.setWidth 64 <<< (7 - i)) i).1.getLsbD k = t.getLsbD k := by
  rw [reduceStep]
  split
  · rw [BitVec.getLsbD_xor, getLsbD_alignedModulus hm hi hk.le, decide_eq_false hk.ne', Bool.xor_false]
  · rfl

/-- An iteration adds a multiple of the modulus. -/
theorem reduceStep_multiple (t : DWord) (m : Word) (i : Nat) :
    ∃ d : Word, t = polyMul d m ^^^ (reduceStep (t, m.setWidth 64 <<< (7 - i)) i).1 := by
  rw [reduceStep]
  split
  · exact ⟨BitVec.twoPow 32 (7 - i), by
      rw [polyMul_twoPow_left m (by omega), BitVec.xor_comm, xor_cancel_right]⟩
  · exact ⟨0, eq_polyMul_zero_xor t m⟩

/-- The running value and the shifted modulus after the first `n` iterations of `fieldReduce`. -/
def reduceRun (t : DWord) (m : Word) (n : Nat) : DWord × DWord :=
  (List.range n).foldl reduceStep (t, m.setWidth 64 <<< 7)

theorem fieldReduce_eq_reduceRun (t : DWord) (m : Word) : fieldReduce t m = (reduceRun t m 8).1 := rfl

theorem reduceRun_succ (t : DWord) (m : Word) (n : Nat) :
    reduceRun t m (n + 1) = reduceStep (reduceRun t m n) n := by
  rw [reduceRun, List.range_succ, List.foldl_append]
  rfl

/-- Shifted by at most 32 places, a word loses no bit at the top. -/
theorem setWidth_shiftLeft_succ_ushiftRight (m : Word) {j : Nat} (hj : j < 32) :
    (m.setWidth 64 <<< (j + 1)) >>> 1 = m.setWidth 64 <<< j := by
  refine BitVec.eq_of_getLsbD_eq fun k hk => ?_
  rw [BitVec.getLsbD_ushiftRight, BitVec.getLsbD_shiftLeft, BitVec.getLsbD_shiftLeft, Nat.add_comm 1 k,
    Nat.add_sub_add_right]
  rcases Nat.lt_or_ge (k + 1) 64 with hlt | hge
  · simp [hlt, hk]
  · simp [BitVec.getLsbD_of_ge m (k - j) (by omega)]

/-- The shifted modulus that iteration `n` finds. -/
theorem reduceRun_modulus (t : DWord) (m : Word) {n : Nat} (hn : n < 8) :
    (reduceRun t m n).2 = m.setWidth 64 <<< (7 - n) := by
  induction n with
  | zero => rfl
  | succ n ih =>
    have hshift : 7 - n = 7 - (n + 1) + 1 := by omega
    rw [reduceRun_succ, reduceStep, ih (by omega), hshift, setWidth_shiftLeft_succ_ushiftRight m (by omega)]

theorem reduceRun_succ_fst (t : DWord) (m : Word) {n : Nat} (hn : n < 8) :
    (reduceRun t m (n + 1)).1 = (reduceStep ((reduceRun t m n).1, m.setWidth 64 <<< (7 - n)) n).1 := by
  rw [reduceRun_succ, ← reduceRun_modulus t m hn]

/-- After `n` iterations bits `15..16-n` are clear and the bits above 15 are as they were. -/
theorem getLsbD_reduceRun {m : Word} (hm : Modulus.Valid m) (t : DWord) {n k : Nat} (hn : n ≤ 8) (hk : 16 - n ≤ k) :
    (reduceRun t m n).1.getLsbD k = (decide (16 ≤ k) && t.getLsbD k) := by
  induction n with
  | zero => rw [decide_eq_true hk]; rfl
  | succ n ih =>
    rw [reduceRun_succ_fst t m hn]
    rcases (show 15 - n ≤ k by omega).eq_or_lt with rfl | hlt
    · rw [reduceStep_clears hm _ hn, decide_eq_false (by omega), Bool.false_and]
    · rw [reduceStep_above hm _ hn hlt, ih (by omega) (by omega)]

theorem reduceRun_multiple (t : DWord) (m : Word) {n : Nat} (hn : n ≤ 8) :
    ∃ d : Word, t = polyMul d m ^^^ (reduceRun t m n).1 := by
  induction n with
  | zero => exact ⟨0, eq_polyMul_zero_xor t m⟩
  | succ n ih =>
    obtain ⟨d, hd⟩ := ih (by omega)
    obtain ⟨e, he⟩ := reduceStep_multiple (reduceRun t m n).1 m n
    refine ⟨d ^^^ e, ?_⟩
    rw [reduceRun_succ_fst t m hn, polyMul_xor_left, BitVec.xor_assoc, ← he]
    exact hd

/-- Rule R123: the reduction clears bits `15..8` and leaves bits `63..16`. -/
theorem getLsbD_fieldReduce {m : Word} (hm : Modulus.Valid m) (t : DWord) {k : Nat} (hk : 8 ≤ k) :
    (fieldReduce t m).getLsbD k = (decide (16 ≤ k) && t.getLsbD k) := by
  rw [fieldReduce_eq_reduceRun]
  exact getLsbD_reduceRun hm t le_rfl hk

/-- The reduction subtracts a multiple of the modulus. -/
theorem fieldReduce_multiple (t : DWord) (m : Word) : ∃ d : Word, t = polyMul d m ^^^ fieldReduce t m := by
  rw [fieldReduce_eq_reduceRun]
  exact reduceRun_multiple t m le_rfl

/-- Rule R124: the reduced product of two bytes is a byte, so `fieldMul` drops nothing. -/
theorem setWidth_fieldMul (a b : Byte) {m : Word} (hm : Modulus.Valid m) :
    (fieldMul a b m).setWidth 64 = fieldReduce (polyMul (a.setWidth 32) (b.setWidth 32)) m := by
  refine BitVec.eq_of_getLsbD_eq fun k hk => ?_
  rw [fieldMul, BitVec.getLsbD_setWidth, BitVec.getLsbD_setWidth, decide_eq_true hk, Bool.true_and]
  rcases Nat.lt_or_ge k 8 with hlt | hge
  · rw [decide_eq_true hlt, Bool.true_and]
  · have hhigh : 16 ≤ k → (polyMul (a.setWidth 32) (b.setWidth 32)).getLsbD k = false :=
      fun h => getLsbD_polyMul_bytes a b (by omega)
    rw [getLsbD_fieldReduce hm _ hge, decide_eq_false (by omega), Bool.false_and]
    simpa using hhigh

theorem fieldMul_comm (a b : Byte) (m : Word) : fieldMul a b m = fieldMul b a m := by
  rw [fieldMul, polyMul_comm, fieldMul]

/-- Settles O34: the product of two bytes has degree at most 14, so the reduction leaves its remainder, a byte. -/
theorem fieldMulIsTheFieldProduct : Obligations.FieldMulIsTheFieldProduct := by
  refine ⟨fun a b m hm => ⟨(setWidth_fieldMul a b hm).symm, ?_, fieldMul_comm a b m⟩, by decide, rfl, rfl, by decide⟩
  rw [setWidth_fieldMul a b hm]
  exact fieldReduce_multiple _ m

end Sys2Proof.Machine
end

section
/-!
SUPPORT. What a write does where its case of rule R64 is known, and what a presentation does where its check is.
-/

namespace Sys2Proof.Machine

theorem memRead_status (s : State) : memRead 0x008 s = s.status.toWord := memRead_offset .status s

theorem memWrite_status (v : Word) (s : State) : memWrite 0x008 v s = writeStatus v s := rfl

theorem memWrite_cmd {s : State} (h : s.status.busy = false) (c : Word) : memWrite 0x004 c s = present c s := by
  simp [memWrite, h]

theorem memWrite_of_isRW {r : Reg} {s : State} (hr : r.isRW = true) (h : s.status.busy = false) (v : Word) :
    memWrite r.offset v s = writeReg s r v := by
  have hs : r.offset ≠ 0x008 := fun h8 => by
    rw [Reg.offset_injective (r' := .status) h8] at hr
    cases hr
  have hc : r.offset ≠ 0x004 := fun h4 => by
    rw [Reg.offset_injective (r' := .cmd) h4] at hr
    cases hr
  simp [memWrite, hs, hc, h, hr]

theorem present_of_check_some {c : Word} {s : State} {e : ErrCode} (h : check c s.status.keyValid = some e) :
    present c s = raise e c s := by
  rw [present, h]

theorem present_of_check_none {c : Word} {s : State} (h : check c s.status.keyValid = none) :
    present c s = accept c s := by
  rw [present, h]

end Sys2Proof.Machine
end

section
/-!
SUPPORT. What one event can do, said once for every step (rules R63, R64, R70, R100, R103, R280).
-/

namespace Sys2Proof.Machine

/-- What an event does to the state it runs in, one constructor for each of its possible outcomes (rules R63, R64,
R100, R103, R280): the rules of `step_cases`, `memWrite_cases`, `present_cases` and `exec_cases` taken together. -/
inductive Effect (s : State) : Event → State → Prop where
  | idle : s.pend = none → Effect s .engine s
  | completion {c : Word} {i : Instr} {t : State} :
      s.pend = some c → decode c = .ok i → Completion s i t → Effect s .engine t
  | read (addr : Nat) (v : Word) : Effect s (.hostRead addr 4) { s with replies := v :: s.replies }
  | clear (addr : Nat) (v : Word) : Effect s (.hostWrite addr 4 v) (writeStatus v s)
  | error (addr : Nat) (v : Word) (e : ErrCode) (info : Word) :
      Effect s (.hostWrite addr 4 v) (raise e info s)
  | accepted {c : Word} (addr : Nat) :
      check c s.status.keyValid = none → Effect s (.hostWrite addr 4 c) (accept c s)
  | data (addr : Nat) (v : Word) (r : Reg) :
      s.status.busy = false → Effect s (.hostWrite addr 4 v) (writeReg s r v)
  | reset : Effect s .reset (applyReset s)

theorem engineTurn_effect {s t : State} (h : engineTurn s = .next t) : Effect s .engine t := by
  obtain ⟨hp, rfl⟩ | ⟨c, i, hp, hd, he⟩ := engineTurn_next h
  · exact .idle hp
  · exact .completion hp hd (exec_cases he)

theorem busRead_effect {addr width : Nat} {s t : State} (h : busRead addr width s = .next t) :
    Effect s (.hostRead addr width) t := by
  obtain ⟨off, -, -, ⟨rfl, -⟩, rfl⟩ := busRead_next h
  exact .read addr _

theorem memWrite_effect (addr off : Nat) (v : Word) (s : State) :
    Effect s (.hostWrite addr 4 v) (memWrite off v s) := by
  obtain ⟨-, h⟩ | ⟨-, -, h⟩ | ⟨-, -, h⟩ | ⟨r, -, -, hb, h⟩ | ⟨-, -, -, -, h⟩ := memWrite_cases off v s <;> rw [h]
  · exact .clear addr v
  · exact .error addr v _ _
  · obtain ⟨e, -, hp⟩ | ⟨hc, hp⟩ := present_cases v s <;> rw [hp]
    · exact .error addr v _ _
    · exact .accepted addr hc
  · exact .data addr v r hb
  · exact .error addr v _ _

theorem busWrite_effect {addr width : Nat} {v : Word} {s t : State} (h : busWrite addr width v s = .next t) :
    Effect s (.hostWrite addr width v) t := by
  obtain ⟨off, -, -, ⟨rfl, -⟩, rfl⟩ := busWrite_next h
  exact memWrite_effect addr off v s

/-- What a step does: the effect of one event, with that event taken off the list. `es` are the events left; with
none coming, the event is the engine's turn (rule R102). -/
theorem step_effect {s t : State} (h : step s = .next t) :
    ∃ e es, (s.events = [] ∧ e = .engine ∨ s.events.head? = some e) ∧ Effect { s with events := es } e t := by
  obtain ⟨u, hu, hstep⟩ := step_cases h
  obtain ⟨es, rfl⟩ : ∃ es, u = { s with events := es } := by
    obtain ⟨-, rfl⟩ | ⟨-, es, -, rfl⟩ := hu
    · exact ⟨u.events, rfl⟩
    · exact ⟨es, rfl⟩
  obtain ⟨he, hturn⟩ | ⟨addr, width, he, hread⟩ | ⟨addr, width, v, he, hwrite⟩ | ⟨he, rfl⟩ := hstep
  · exact ⟨.engine, es, he.imp_left (⟨·, rfl⟩), engineTurn_effect hturn⟩
  · exact ⟨_, es, .inr he, busRead_effect hread⟩
  · exact ⟨_, es, .inr he, busWrite_effect hwrite⟩
  · exact ⟨_, es, .inr he, .reset⟩

end Sys2Proof.Machine
end

section
/-!
SUPPORT. The invariant of the engine holds after reset, and every step keeps it.
-/

namespace Sys2Proof.Machine

/-- A word that passed its checks passes them with a valid key: KEYSCHED's completion disturbs no earlier check. -/
theorem check_none_keyed {c : Word} {kv : Bool} (h : check c kv = none) : check c true = none := by
  simp only [check] at h ⊢
  split_ifs at h ⊢ <;> simp_all

theorem engineInv_reset : EngineInv State.reset where
  busy_pend := rfl
  cmd_pend := nofun
  pend_legal := nofun
  cmd_legal := by decide
  busy_done := nofun
  no_error _ := ⟨rfl, rfl⟩
  error_code := nofun
  no_key _ := rfl
  key_schedule := nofun

theorem EngineInv.of_complete {s : State} (h : EngineInv s) : EngineInv (complete s) :=
  { h with
    busy_pend := rfl
    cmd_pend := nofun
    pend_legal := nofun
    busy_done := nofun }

theorem EngineInv.of_keyed {s : State} (h : EngineInv s) (key : Quad) :
    EngineInv { s with sched := keySchedule tables key, status := s.status.keyed } :=
  { h with
    pend_legal := fun c hc => check_none_keyed (h.pend_legal c hc)
    cmd_legal := check_none_keyed h.cmd_legal
    no_key := nofun
    key_schedule := fun _ => ⟨key, rfl⟩ }

theorem EngineInv.of_completion {s t : State} {i : Instr} (h : EngineInv s) (hc : Completion s i t) :
    EngineInv t := by
  cases hc with
  | nop => exact h.of_complete
  | keysched => exact (h.of_keyed s.key).of_complete
  | result _ lo hi => exact EngineInv.of_complete (s := { s with res := lo, resHi := hi }) { h with }
  | block _ b => exact EngineInv.of_complete (s := { s with dout := b }) { h with }

theorem EngineInv.of_accept {s : State} {c : Word} (h : EngineInv s) (hc : check c s.status.keyValid = none) :
    EngineInv (accept c s) :=
  { h with
    busy_pend := rfl
    cmd_pend := fun _ h => Option.some.inj h
    pend_legal := fun _ h => Option.some.inj h ▸ hc
    cmd_legal := hc
    busy_done := fun _ => rfl }

theorem Status.recorded_errCode (t : Status) (e : ErrCode) :
    (t.recorded e).errCode = if t.err then t.errCode else e.code := by
  unfold Status.recorded
  split <;> rfl

theorem ErrCode.code_bounds (e : ErrCode) : 1#4 ≤ e.code ∧ e.code ≤ 5#4 := by
  cases e <;> decide

theorem EngineInv.of_raise {s : State} (h : EngineInv s) (e : ErrCode) (info : Word) :
    EngineInv (raise e info s) where
  busy_pend := by simpa using h.busy_pend
  cmd_pend := h.cmd_pend
  pend_legal := by simpa using h.pend_legal
  cmd_legal := by simpa using h.cmd_legal
  busy_done := by simpa using h.busy_done
  no_error := by simp
  error_code _ := by
    rw [raise_status, Status.recorded_errCode]
    split
    · next herr => exact h.error_code herr
    · exact e.code_bounds
  no_key := by simpa using h.no_key
  key_schedule := by simpa using h.key_schedule

theorem EngineInv.of_writeStatus {s : State} (h : EngineInv s) (v : Word) : EngineInv (writeStatus v s) :=
  { h with
    busy_done := fun hb => by simp [h.busy_done hb]
    no_error := fun herr => by
      rw [writeStatus_status, Status.clearedBy_err] at herr
      rw [writeStatus_status, Status.clearedBy_errCode, writeStatus_errInfo]
      cases hv : v.getLsbD 3 with
      | true => exact ⟨rfl, rfl⟩
      | false => exact h.no_error (by rwa [hv, Bool.not_false, Bool.and_true] at herr)
    error_code := fun herr => by
      rw [writeStatus_status, Status.clearedBy_err] at herr
      obtain ⟨hs, hv⟩ := Bool.and_eq_true_iff.mp herr
      rw [writeStatus_status, Status.clearedBy_errCode, (Bool.not_eq_true' _).mp hv]
      exact h.error_code hs }

theorem EngineInv.of_writeReg {s : State} (h : EngineInv s) (r : Reg) (v : Word) : EngineInv (writeReg s r v) := by
  cases r <;> exact { h with }

theorem EngineInv.of_effect {s t : State} {e : Event} (h : EngineInv s) (he : Effect s e t) : EngineInv t := by
  cases he with
  | idle => exact h
  | completion _ _ hc => exact h.of_completion hc
  | read => exact { h with }
  | clear _ v => exact h.of_writeStatus v
  | error _ _ e info => exact h.of_raise e info
  | accepted _ hc => exact h.of_accept hc
  | data _ v r => exact h.of_writeReg r v
  | reset => exact { engineInv_reset with }

/-- Settles O25: each effect of an event keeps the invariant, and taking the event off the list is not seen by it. -/
theorem stepKeepsTheInvariant : Obligations.StepKeepsTheInvariant := by
  intro s t h hstep
  obtain ⟨e, es, -, he⟩ := step_effect hstep
  exact EngineInv.of_effect (s := { s with events := es }) { h with } he

/-- Settles O24: all registers are 0, and the word 0 is `tf.nop`, which needs no key. -/
theorem resetMeetsTheInvariant : Obligations.ResetMeetsTheInvariant := engineInv_reset

end Sys2Proof.Machine
end

section
/-!
SUPPORT. A word is its four fields (rule R80), so the decoder drops no bit of it.
-/

namespace Sys2Proof.Machine

/-- A word is its four fields put together (rule R80). -/
theorem word_of_fields (c : Word) :
    (opcodeOf c).setWidth 32 ||| ((ridxOf c).setWidth 32 <<< 8)
      ||| ((BitVec.ofBool (selOf c)).setWidth 32 <<< 12) ||| ((rsvdOf c).setWidth 32 <<< 13) = c := by
  refine BitVec.eq_of_getLsbD_eq fun k hk => ?_
  simp only [opcodeOf, ridxOf, selOf, rsvdOf, BitVec.getLsbD_or, BitVec.getLsbD_shiftLeft,
    BitVec.getLsbD_setWidth, BitVec.getLsbD_extractLsb']
  interval_cases k <;> simp

theorem encode_of_decodePlain {c : Word} {i j : Instr} {op : Byte} (h : decodePlain c i = .ok j)
    (hop : opcodeOf c = op) (hi : encode i = op.setWidth 32) : encode j = c := by
  unfold decodePlain at h
  split at h
  · next hc =>
    obtain ⟨hrsvd, hridx, hsel⟩ := hc
    cases h
    refine Eq.trans ?_ (word_of_fields c)
    simp [hi, hop, hrsvd, hridx, hsel]
  · cases h

theorem encode_of_decodeSel {c : Word} {i0 i1 j : Instr} {op : Byte} (h : decodeSel c i0 i1 = .ok j)
    (hop : opcodeOf c = op) (h0 : encode i0 = op.setWidth 32) (h1 : encode i1 = op.setWidth 32 ||| 0x1000) :
    encode j = c := by
  unfold decodeSel at h
  split at h
  · next hc =>
    obtain ⟨hrsvd, hridx⟩ := hc
    cases h
    refine Eq.trans ?_ (word_of_fields c)
    cases hsel : selOf c <;> simp [h0, h1, hop, hrsvd, hridx]
  · cases h

theorem encode_of_decodeRound {c : Word} {i : Nat → Instr} {j : Instr} {op : Byte}
    (h : decodeRound c i = .ok j) (hop : opcodeOf c = op)
    (hi : ∀ r, encode (i r) = op.setWidth 32 ||| ((BitVec.ofNat 4 r).setWidth 32 <<< 8)) : encode j = c := by
  unfold decodeRound at h
  split at h
  · next hc =>
    obtain ⟨hrsvd, hsel⟩ := hc
    cases h
    refine Eq.trans ?_ (word_of_fields c)
    simp [hi, hop, hrsvd, hsel]
  · cases h

/-- The one word of the command the decoder reads is the word it read: no bit is dropped (rules R84, R87, R90). -/
theorem encode_of_decode {c : Word} {i : Instr} (h : decode c = .ok i) : encode i = c := by
  unfold decode at h
  obtain ⟨hop, h⟩ | ⟨-, h⟩ := ite_eq_iff.mp h
  · exact encode_of_decodePlain h hop rfl
  obtain ⟨hop, h⟩ | ⟨-, h⟩ := ite_eq_iff.mp h
  · exact encode_of_decodePlain h hop rfl
  obtain ⟨hop, h⟩ | ⟨-, h⟩ := ite_eq_iff.mp h
  · exact encode_of_decodePlain h hop rfl
  obtain ⟨hop, h⟩ | ⟨-, h⟩ := ite_eq_iff.mp h
  · exact encode_of_decodePlain h hop rfl
  obtain ⟨hop, h⟩ | ⟨-, h⟩ := ite_eq_iff.mp h
  · exact encode_of_decodeRound h hop fun _ => rfl
  obtain ⟨hop, h⟩ | ⟨-, h⟩ := ite_eq_iff.mp h
  · exact encode_of_decodeRound h hop fun _ => rfl
  obtain ⟨hop, h⟩ | ⟨-, h⟩ := ite_eq_iff.mp h
  · exact encode_of_decodeSel h hop rfl rfl
  obtain ⟨hop, h⟩ | ⟨-, h⟩ := ite_eq_iff.mp h
  · exact encode_of_decodePlain h hop rfl
  obtain ⟨hop, h⟩ | ⟨-, h⟩ := ite_eq_iff.mp h
  · exact encode_of_decodeSel h hop rfl rfl
  obtain ⟨hop, h⟩ | ⟨-, h⟩ := ite_eq_iff.mp h
  · exact encode_of_decodeSel h hop rfl rfl
  obtain ⟨hop, h⟩ | ⟨-, h⟩ := ite_eq_iff.mp h
  · exact encode_of_decodeSel h hop rfl rfl
  obtain ⟨hop, h⟩ | ⟨-, h⟩ := ite_eq_iff.mp h
  · exact encode_of_decodePlain h hop rfl
  obtain ⟨hop, h⟩ | ⟨-, h⟩ := ite_eq_iff.mp h
  · exact encode_of_decodePlain h hop rfl
  obtain ⟨hop, h⟩ | ⟨-, h⟩ := ite_eq_iff.mp h
  · exact encode_of_decodePlain h hop rfl
  cases h

end Sys2Proof.Machine
end

section
/-!
SUPPORT. Which events may change the schedule, the operands and the results.
-/

namespace Sys2Proof.Machine

/-- Who changes the schedule or KEYVALID: reset and the completion of KEYSCHED (rules R32 to R34). -/
theorem Effect.schedule_cases {s t : State} {e : Event} (h : Effect s e t) :
    t.sched = s.sched ∧ t.status.keyValid = s.status.keyValid ∨
    e = .reset ∧ t.status.keyValid = false ∨
    e = .engine ∧ s.pend = some (encode .keysched) ∧
      t.sched = keySchedule tables s.key ∧ t.status.keyValid = true ∧ t.pend = none := by
  cases h with
  | completion hp hd hc =>
    cases hc with
    | keysched => exact .inr (.inr ⟨rfl, (encode_of_decode hd).symm ▸ hp, rfl, rfl, rfl⟩)
    | _ => exact .inl ⟨rfl, rfl⟩
  | reset => exact .inr (.inl ⟨rfl, rfl⟩)
  | _ => simp

/-- Who changes an operand register: reset and a host write while idle (rules R26, R28, R30). -/
theorem Effect.operand_cases {s t : State} {e : Event} (h : Effect s e t) :
    (t.key = s.key ∧ t.din = s.din ∧ t.opa = s.opa ∧ t.opb = s.opb ∧ t.opc = s.opc) ∨
    e = .reset ∨
    s.status.busy = false ∧ ∃ addr v, e = .hostWrite addr 4 v := by
  cases h with
  | completion _ _ hc => cases hc <;> exact .inl ⟨rfl, rfl, rfl, rfl, rfl⟩
  | data addr v _ hb => exact .inr (.inr ⟨hb, addr, v, rfl⟩)
  | reset => exact .inr (.inl rfl)
  | _ => exact .inl ⟨rfl, rfl, rfl, rfl, rfl⟩

theorem Completion.pend_status {s t : State} {i : Instr} (h : Completion s i t) :
    t.pend = none ∧ t.status.busy = false ∧ t.status.done = true := by
  cases h <;> exact ⟨rfl, rfl, rfl⟩

/-- Who changes a result register: reset and a completion (rules R27, R29, R31). -/
theorem Effect.result_cases {s t : State} {e : Event} (h : Effect s e t) :
    (t.dout = s.dout ∧ t.res = s.res ∧ t.resHi = s.resHi) ∨
    e = .reset ∨
    s.pend ≠ none ∧ t.pend = none ∧ t.status.busy = false ∧ t.status.done = true := by
  cases h with
  | completion hp _ hc => exact .inr (.inr ⟨by simp [hp], hc.pend_status⟩)
  | reset => exact .inr (.inl rfl)
  | _ => simp

/-- Settles O28: of the effects an event can have, only those two reach the schedule. -/
theorem onlyKeyschedWritesTheSchedule : Obligations.OnlyKeyschedWritesTheSchedule := by
  intro s t hstep hne
  obtain ⟨e, es, hevents, he⟩ := step_effect hstep
  obtain ⟨hsame, -⟩ | ⟨rfl, -⟩ | ⟨rfl, hp, hsched, -⟩ := he.schedule_cases
  · exact absurd hsame hne
  · exact .inl (hevents.resolve_left nofun)
  · exact .inr ⟨hevents.imp_left And.left, hp, hsched⟩

/-- Settles O29: a completion writes no operand, and a data write is made while idle only. -/
theorem onlyTheHostWritesOperands : Obligations.OnlyTheHostWritesOperands := by
  intro s t hstep
  obtain ⟨e, es, hevents, he⟩ := step_effect hstep
  obtain hsame | rfl | ⟨hbusy, addr, v, rfl⟩ := he.operand_cases
  · exact .inl hsame
  · exact .inr (.inl (hevents.resolve_left nofun))
  · exact .inr (.inr ⟨hbusy, addr, v, hevents.resolve_left nofun⟩)

/-- Settles O30: no host access reaches a result register. -/
theorem onlyCompletionWritesResults : Obligations.OnlyCompletionWritesResults := by
  intro s t hstep
  obtain ⟨e, es, hevents, he⟩ := step_effect hstep
  obtain hsame | rfl | hdone := he.result_cases
  · exact .inl hsame
  · exact .inr (.inl (hevents.resolve_left nofun))
  · exact .inr (.inr hdone)

end Sys2Proof.Machine
end

section
/-!
SUPPORT. KEYVALID (rule R34): who changes it, and what its absence means.
-/

namespace Sys2Proof.Machine

/-- The family `EncodedIsLegal` of Laws/PerInstr.lean, for every instruction. -/
theorem encodedIsLegal (i : Instr) : Laws.EncodedIsLegal.Statement i := by
  cases i
  exacts [Laws.EncodedIsLegal.nop, Laws.EncodedIsLegal.keysched, Laws.EncodedIsLegal.encrypt,
    Laws.EncodedIsLegal.decrypt, Laws.EncodedIsLegal.rndenc _, Laws.EncodedIsLegal.rnddec _,
    Laws.EncodedIsLegal.whitenIn, Laws.EncodedIsLegal.whitenOut, Laws.EncodedIsLegal.polymul,
    Laws.EncodedIsLegal.freduceMds, Laws.EncodedIsLegal.freduceRs, Laws.EncodedIsLegal.gfmulMds,
    Laws.EncodedIsLegal.gfmulRs, Laws.EncodedIsLegal.qpermQ0, Laws.EncodedIsLegal.qpermQ1,
    Laws.EncodedIsLegal.mdsmix, Laws.EncodedIsLegal.rsmix, Laws.EncodedIsLegal.gfunc]

theorem memWrite_cmd_noKey {i : Instr} {s : State} (hi : i.wellFormed = true) (hkey : i.needsKey = true)
    (hbusy : s.status.busy = false) (hkv : s.status.keyValid = false) :
    memWrite 0x004 (encode i) s = raise .noKey (encode i) s := by
  obtain ⟨-, hcheck⟩ := encodedIsLegal i hi
  rw [memWrite_cmd hbusy, present_of_check_some]
  rw [hkv, hcheck, if_pos hkey]

theorem Schedule.subkey_reset (i : Fin 40) : Schedule.reset.subkey i = 0 := by
  simp [Schedule.subkey, Schedule.reset]

/-- Settles O27: KEYVALID moves with the schedule; with KEYVALID 0 the encoded word fails its key check, and the
invariant gives the schedule's value. -/
theorem keyValidRule : Obligations.KeyValidRule := by
  refine ⟨rfl, fun s => ⟨_, rfl, rfl⟩, ?_, ?_, ?_⟩
  · intro s t hstep hne
    obtain ⟨e, es, hevents, he⟩ := step_effect hstep
    obtain ⟨-, hsame⟩ | ⟨rfl, hkv⟩ | ⟨rfl, hp, -, hkv, hdone⟩ := he.schedule_cases
    · exact absurd hsame hne
    · exact .inl ⟨hevents.resolve_left nofun, hkv⟩
    · exact .inr ⟨hevents.imp_left And.left, hp, hkv, hdone⟩
  · intro s i hi hmem
    refine memWrite_cmd_noKey hi ?_
    obtain hmem | ⟨r, rfl | rfl⟩ := hmem
    · revert hmem
      cases i <;> simp [Instr.needsKey]
    · rfl
    · rfl
  · intro s hinv hkv
    have hsched := hinv.no_key hkv
    refine ⟨?_, ?_, fun i => ?_⟩
    · exact (memRead_offset .skey0 s).trans (congrArg Schedule.skey0 hsched)
    · exact (memRead_offset .skey1 s).trans (congrArg Schedule.skey1 hsched)
    · exact (memRead_offset (.ks i) s).trans ((congrArg (Schedule.subkey · i) hsched).trans (Schedule.subkey_reset i))

end Sys2Proof.Machine
end

section
/-!
SUPPORT. The read/write matrix of rule R41: what a completion commits, and which registers that depends on.
-/

namespace Sys2Proof.Machine

/-- What a completion writes beside PEND, BUSY and DONE: one constructor per shape of row of rule R41's matrix. -/
inductive Commit where
  | nothing
  | schedule (k : Schedule)
  | block (b : Quad)
  | result (lo hi : Word)

/-- The state a completion leaves. -/
def Commit.run : Commit → State → State
  | .nothing, s => complete s
  | .schedule k, s => complete { s with sched := k, status := s.status.keyed }
  | .block b, s => completeBlock b s
  | .result lo hi, s => completeResult lo hi s

/-- The registers a completion writes, beside STATUS. -/
def Commit.writes : Commit → List Reg
  | .nothing => []
  | .schedule _ => [.skey0, .skey1] ++ (List.finRange 40).map .ks
  | .block _ => (List.finRange 4).map .dout
  | .result _ _ => [.res, .resHi]

/-- Whether the completion sets KEYVALID. -/
def Commit.keys : Commit → Bool
  | .schedule _ => true
  | _ => false

@[simp] theorem Commit.run_events (c : Commit) (s : State) : (c.run s).events = s.events := by
  cases c <;> rfl

@[simp] theorem Commit.run_replies (c : Commit) (s : State) : (c.run s).replies = s.replies := by
  cases c <;> rfl

theorem Commit.run_status (c : Commit) (s : State) :
    (c.run s).status = { s.status with
      busy := false, done := true, keyValid := if c.keys then true else s.status.keyValid } := by
  cases c <;> rfl

theorem Commit.run_sched {c : Commit} (h : c.keys = false) (s : State) : (c.run s).sched = s.sched := by
  cases c with
  | schedule k => cases h
  | _ => rfl

theorem Commit.run_dout_congr (c : Commit) {s s' : State} (h : s.dout = s'.dout) :
    (c.run s).dout = (c.run s').dout := by
  cases c with
  | block b => rfl
  | _ => exact h

theorem Commit.readReg_run_of_mem {c : Commit} {r : Reg} (hr : r ∈ c.writes) (s s' : State) :
    readReg (c.run s) r = readReg (c.run s') r := by
  cases c with
  | nothing => cases hr
  | schedule k =>
    obtain rfl | rfl | ⟨i, rfl⟩ : r = .skey0 ∨ r = .skey1 ∨ ∃ i, .ks i = r := by simpa [writes] using hr
    all_goals rfl
  | block b =>
    obtain ⟨i, rfl⟩ : ∃ i, .dout i = r := by simpa [writes] using hr
    rfl
  | result lo hi =>
    obtain rfl | rfl : r = .res ∨ r = .resHi := by simpa [writes] using hr
    all_goals rfl

theorem Commit.readReg_run_of_not_mem {c : Commit} {r : Reg} (hr : r ∉ c.writes) (hstatus : r ≠ .status)
    (s : State) : readReg (c.run s) r = readReg s r := by
  cases c with
  | nothing =>
    cases r with
    | status => exact absurd rfl hstatus
    | _ => rfl
  | schedule k =>
    cases r with
    | status => exact absurd rfl hstatus
    | skey0 | skey1 | ks => exact absurd (by simp [writes]) hr
    | _ => rfl
  | block b =>
    cases r with
    | status => exact absurd rfl hstatus
    | dout => exact absurd (by simp [writes]) hr
    | _ => rfl
  | result lo hi =>
    cases r with
    | status => exact absurd rfl hstatus
    | res | resHi => exact absurd (by simp [writes]) hr
    | _ => rfl

theorem agreeOnReads_refl (i : Instr) (s : State) : AgreeOnReads i s s := fun _ _ => rfl

theorem AgreeOnReads.reg {i : Instr} {s s' : State} (h : AgreeOnReads i s s') (r : Reg)
    (hr : (r, 0xFFFFFFFF) ∈ Instr.reads i) : readReg s r = readReg s' r := by
  have hmask : readReg s r &&& BitVec.allOnes 32 = readReg s' r &&& BitVec.allOnes 32 := h _ hr
  rwa [BitVec.and_allOnes, BitVec.and_allOnes] at hmask

/-- The mask `0xFF` of rule R41's matrix keeps what GFMUL and QPERM read of a register. -/
theorem lowByte_and_mask (x : Word) : lowByte (x &&& 0xFF) = lowByte x := by
  refine BitVec.eq_of_getLsbD_eq fun k hk => ?_
  simp only [lowByte, getLsbD_byte]
  interval_cases k <;> simp

theorem AgreeOnReads.lowByte {i : Instr} {s s' : State} (h : AgreeOnReads i s s') (r : Reg)
    (hr : (r, 0xFF) ∈ Instr.reads i) : lowByte (readReg s r) = lowByte (readReg s' r) := by
  rw [← lowByte_and_mask, h _ hr, lowByte_and_mask]

section
open Instr.reads
variable {i : Instr} {s s' : State} (h : AgreeOnReads i s s')
include h

theorem AgreeOnReads.din (hi : blockReads ⊆ Instr.reads i) : s.din = s'.din :=
  Quad.ext_get fun j => h.reg (.din j) (hi (by simp [blockReads]))

theorem AgreeOnReads.sched (hi : cipherReads ⊆ Instr.reads i) : s.sched = s'.sched := by
  have h0 : s.sched.skey0 = s'.sched.skey0 := h.reg .skey0 (hi (by simp [cipherReads, sboxReads]))
  have h1 : s.sched.skey1 = s'.sched.skey1 := h.reg .skey1 (hi (by simp [cipherReads, sboxReads]))
  have hks : s.sched.ks = s'.sched.ks := Vector.ext fun j hj => h.reg (.ks ⟨j, hj⟩) (hi (by simp [cipherReads]))
  calc s.sched = ⟨s'.sched.skey0, s'.sched.skey1, s'.sched.ks⟩ := by rw [← h0, ← h1, ← hks]
    _ = s'.sched := rfl

theorem AgreeOnReads.roundF {r : Fin 16} (hi : roundReads r ⊆ Instr.reads i) (T : Tables) (a b : Word) :
    roundF T s.sched a b r = roundF T s'.sched a b r := by
  have h0 : s.sched.skey0 = s'.sched.skey0 := h.reg .skey0 (hi (by simp [roundReads, sboxReads]))
  have h1 : s.sched.skey1 = s'.sched.skey1 := h.reg .skey1 (hi (by simp [roundReads, sboxReads]))
  have hk0 : roundKey0 s.sched r = roundKey0 s'.sched r := h.reg (.ks _) (hi (by simp [roundReads]))
  have hk1 : roundKey1 s.sched r = roundKey1 s'.sched r := h.reg (.ks _) (hi (by simp [roundReads]))
  simp only [Machine.roundF, h0, h1, hk0, hk1]

end

theorem AgreeOnReads.whitenIn {s s' : State} (h : AgreeOnReads .whitenIn s s') :
    whitenKeys s.sched .input = whitenKeys s'.sched .input :=
  Quad.ext_get fun j => by
    have hj : s.sched.subkey ⟨j.val, by omega⟩ = s'.sched.subkey ⟨j.val, by omega⟩ :=
      h.reg (.ks _) (by simp [Instr.reads])
    fin_cases j <;> exact hj

theorem AgreeOnReads.whitenOut {s s' : State} (h : AgreeOnReads .whitenOut s s') :
    whitenKeys s.sched .output = whitenKeys s'.sched .output :=
  Quad.ext_get fun j => by
    have hj : s.sched.subkey ⟨4 + j.val, by omega⟩ = s'.sched.subkey ⟨4 + j.val, by omega⟩ :=
      h.reg (.ks _) (by simp [Instr.reads])
    fin_cases j <;> exact hj

/-- Rule R41: what a command commits is determined by the registers of its row, and goes to the registers of its row.
The two states may differ in everything else. -/
theorem exec_agree {i : Instr} {s s' : State} (h : AgreeOnReads i s s') :
    ∃ c : Commit, exec i s = .next (c.run s) ∧ exec i s' = .next (c.run s') ∧
      Instr.writes i = c.writes ∧ c.keys = decide (i = .keysched) := by
  cases i
  case nop => exact ⟨.nothing, rfl, rfl, rfl, rfl⟩
  case keysched =>
    have hkey : s.key = s'.key := Quad.ext_get fun j => h.reg (.key j) (by simp [Instr.reads])
    exact ⟨.schedule _, rfl, by rw [hkey]; rfl, rfl, rfl⟩
  case encrypt | decrypt =>
    have hsched := h.sched (List.Subset.refl _)
    have hdin := h.din (by simp [Instr.reads, Instr.reads.cipherReads])
    exact ⟨.block _, rfl, by rw [hsched, hdin]; rfl, rfl, rfl⟩
  case rndenc r =>
    have hround := h.roundF (r := roundIndex r) (List.Subset.refl _) tables
    have hdin := h.din (by simp [Instr.reads, Instr.reads.roundReads])
    exact ⟨.block (encRound tables s.sched (roundIndex r) s.din), rfl, by rw [encRound, hround, hdin]; rfl, rfl, rfl⟩
  case rnddec r =>
    have hround := h.roundF (r := roundIndex r) (List.Subset.refl _) tables
    have hdin := h.din (by simp [Instr.reads, Instr.reads.roundReads])
    exact ⟨.block (decRound tables s.sched (roundIndex r) s.din), rfl, by rw [decRound, hround, hdin]; rfl, rfl, rfl⟩
  case whitenIn =>
    have hdin := h.din (by simp [Instr.reads])
    exact ⟨.block (whiten s.sched .input s.din), rfl, by rw [whiten, h.whitenIn, hdin]; rfl, rfl, rfl⟩
  case whitenOut =>
    have hdin := h.din (by simp [Instr.reads])
    exact ⟨.block (whiten s.sched .output s.din), rfl, by rw [whiten, h.whitenOut, hdin]; rfl, rfl, rfl⟩
  case freduceMds | freduceRs | mdsmix =>
    have ha : s.opa = s'.opa := h.reg .opa (by simp [Instr.reads])
    exact ⟨.result _ _, rfl, by rw [ha]; rfl, rfl, rfl⟩
  case polymul | rsmix =>
    have ha : s.opa = s'.opa := h.reg .opa (by simp [Instr.reads])
    have hb : s.opb = s'.opb := h.reg .opb (by simp [Instr.reads])
    exact ⟨.result _ _, rfl, by rw [ha, hb]; rfl, rfl, rfl⟩
  case gfunc =>
    have ha : s.opa = s'.opa := h.reg .opa (by simp [Instr.reads])
    have hb : s.opb = s'.opb := h.reg .opb (by simp [Instr.reads])
    have hc : s.opc = s'.opc := h.reg .opc (by simp [Instr.reads])
    exact ⟨.result _ _, rfl, by rw [ha, hb, hc]; rfl, rfl, rfl⟩
  case qpermQ0 | qpermQ1 =>
    have ha : lowByte s.opa = lowByte s'.opa := h.lowByte .opa (by simp [Instr.reads])
    exact ⟨.result _ _, rfl, by rw [ha]; rfl, rfl, rfl⟩
  case gfmulMds | gfmulRs =>
    have ha : lowByte s.opa = lowByte s'.opa := h.lowByte .opa (by simp [Instr.reads])
    have hb : lowByte s.opb = lowByte s'.opb := h.lowByte .opb (by simp [Instr.reads])
    exact ⟨.result _ _, rfl, by rw [ha, hb]; rfl, rfl, rfl⟩

/-- Settles O31: two states that agree on a command's row commit the same values, and a commit keeps the other
registers. -/
theorem readWriteMatrix : Obligations.ReadWriteMatrix := by
  refine ⟨fun i s s' _ hagree => ?_, fun s c hc => present_of_check_none hc⟩
  obtain ⟨c, hs, hs', hwrites, hkeys⟩ := exec_agree hagree
  refine ⟨_, _, hs, hs', fun r hr => ?_, fun r hr hstatus => ?_, ?_, c.run_events s, c.run_replies s⟩
  · exact Commit.readReg_run_of_mem (hwrites ▸ hr) s s'
  · exact Commit.readReg_run_of_not_mem (hwrites ▸ hr) hstatus s
  · simp only [Commit.run_status, hkeys, decide_eq_true_eq]

end Sys2Proof.Machine
end

section
/-!
SUPPORT. A change of the key registers leaves the schedule and every command that uses it (rules R197, R292).
-/

namespace Sys2Proof.Machine

theorem agreeOnReads_writeReg {i : Instr} {r : Reg} (h : ∀ p ∈ Instr.reads i, p.1 ≠ r) (s : State) (v : Word) :
    AgreeOnReads i s (writeReg s r v) := fun p hp => by
  rw [readReg_writeReg_ne (h p hp)]

open Instr.reads in
/-- No command that needs the key reads a KEY register: each works from the schedule (rules R41, R292). -/
theorem key_not_mem_reads_of_needsKey {i : Instr} (h : i.needsKey = true) (j : Fin 4) :
    ∀ p ∈ Instr.reads i, p.1 ≠ .key j := by
  have hblock : ∀ p ∈ blockReads, p.1 ≠ .key j := List.forall_mem_map.mpr fun _ _ => nofun
  have hsbox : ∀ p ∈ sboxReads, p.1 ≠ .key j := by simp [sboxReads]
  have hinput := List.forall_mem_append.mpr ⟨hblock, hsbox⟩
  have hcipher : ∀ p ∈ cipherReads, p.1 ≠ .key j :=
    List.forall_mem_append.mpr ⟨hinput, List.forall_mem_map.mpr fun _ _ => nofun⟩
  have hround : ∀ r, ∀ p ∈ roundReads r, p.1 ≠ .key j := fun r =>
    List.forall_mem_append.mpr ⟨hinput, by simp⟩
  cases i with
  | encrypt | decrypt => exact hcipher
  | rndenc r | rnddec r => exact hround _
  | whitenIn | whitenOut => exact List.forall_mem_append.mpr ⟨hblock, List.forall_mem_map.mpr fun _ _ => nofun⟩
  | _ => cases h

/-- Settles O49: a key write is to a register that no command of the six reads, so each commits the same block
after it. -/
theorem scheduleOutlivesTheKey : Obligations.ScheduleOutlivesTheKey := by
  refine ⟨fun s => ⟨_, _, rfl, rfl, rfl⟩, fun s j v hbusy => ?_⟩
  have hwrite : memWrite (0x010 + 4 * j) v s = writeReg s (.key j) v := memWrite_of_isRW (r := .key j) rfl hbusy v
  rw [hwrite]
  refine ⟨rfl, rfl, rfl, fun i hi => ?_⟩
  obtain ⟨c, hs, hs', -, hkeys⟩ := exec_agree (agreeOnReads_writeReg (key_not_mem_reads_of_needsKey hi j) s v)
  have hsched : c.keys = false := hkeys.trans (decide_eq_false (by rintro rfl; cases hi))
  exact ⟨_, _, hs, hs', c.run_dout_congr rfl, Commit.run_sched hsched s⟩

end Sys2Proof.Machine
end

section
/-!
SUPPORT. The register window as the host reads it (rules R21, R61).
-/

namespace Sys2Proof.Machine

/-- Settles O10: each offset is that of its register, and the reserved ranges hold no register's offset. -/
theorem windowReadsTheRegisterMap : Obligations.WindowReadsTheRegisterMap := by
  intro s
  refine ⟨memRead_offset .id s, memRead_offset .cmd s, memRead_offset .status s, memRead_offset .errInfo s,
    fun j => ⟨memRead_offset (.key j) s, memRead_offset (.din j) s, memRead_offset (.dout j) s⟩,
    memRead_offset .opa s, memRead_offset .opb s, memRead_offset .opc s, memRead_offset .res s,
    memRead_offset .resHi s, memRead_offset .skey0 s, memRead_offset .skey1 s,
    fun i => memRead_offset (.ks i) s, fun off hoff => memRead_reserved (fun r => ?_) s⟩
  cases r <;> simp only [Reg.offset] <;> omega

end Sys2Proof.Machine
end

section
/-!
SUPPORT. The fields of STATUS and their changes (rules R24, R101, R103).
-/

namespace Sys2Proof.Machine

theorem Status.toWord_bits (t : Status) :
    t.toWord.getLsbD 0 = t.busy ∧ t.toWord.getLsbD 1 = t.done ∧ t.toWord.getLsbD 2 = t.keyValid ∧
      t.toWord.getLsbD 3 = t.err ∧ t.toWord.getLsbD 4 = t.eovf := by
  simp [toWord, bitAt]

theorem Status.toWord_errCode (t : Status) : t.toWord.extractLsb' 8 4 = t.errCode := by
  refine BitVec.eq_of_getLsbD_eq fun k hk => ?_
  interval_cases k <;> simp [toWord, bitAt]

theorem Status.toWord_reserved (t : Status) : t.toWord.extractLsb' 5 3 = 0 ∧ t.toWord.extractLsb' 12 20 = 0 := by
  constructor
  · refine BitVec.eq_of_getLsbD_eq fun k hk => ?_
    interval_cases k <;> simp [toWord, bitAt]
  · refine BitVec.eq_of_getLsbD_eq fun k hk => ?_
    interval_cases k <;> simp [toWord, bitAt]

/-- What every command does to STATUS (rules R34, R103). -/
theorem exec_status (i : Instr) (s : State) :
    ∃ t, exec i s = .next t ∧ t.status = { s.status with
      busy := false, done := true, keyValid := if i = .keysched then true else s.status.keyValid } := by
  obtain ⟨c, hs, -, -, hkeys⟩ := exec_agree (agreeOnReads_refl i s)
  exact ⟨_, hs, by simp only [Commit.run_status, hkeys, decide_eq_true_eq]⟩

/-- The write-1-to-clear update with each bit's condition written out (rule R24). -/
theorem Status.clearedBy_eq (t : Status) (v : Word) :
    t.clearedBy v = { t with
      done := if v.getLsbD 1 then false else t.done
      eovf := if v.getLsbD 4 then false else t.eovf
      err := if v.getLsbD 3 then false else t.err
      errCode := if v.getLsbD 3 then 0 else t.errCode } := by
  rw [clearedBy]
  cases v.getLsbD 1 <;> cases v.getLsbD 3 <;> cases v.getLsbD 4 <;> simp

/-- Settles O14: the bits of the word read, the update a write makes, and what acceptance and completion change. -/
theorem statusRegister : Obligations.StatusRegister := by
  intro s v
  rw [memRead_status, memRead_status, memWrite_status]
  obtain ⟨h0, h1, h2, h3, h4⟩ := s.status.toWord_bits
  obtain ⟨hlow, hhigh⟩ := s.status.toWord_reserved
  refine ⟨⟨h0, h1, h2, h3, h4, hlow, s.status.toWord_errCode, hhigh⟩, rfl, ?_, ?_, fun _ => rfl,
    fun i => exec_status i s, fun hinv => ⟨?_, fun herr => (hinv.no_error herr).1⟩⟩
  · rw [writeStatus, Status.clearedBy_eq]
  · exact readAt_next.mpr ⟨by decide, by decide, by rw [memRead_status]⟩
  · rw [hinv.busy_pend, Option.isSome_iff_ne_none]

end Sys2Proof.Machine
end

section
/-!
SUPPORT. The turn of each event, said as an equation (rules R70, R102, R103, R266): what a step is when its event is
known, and what the engine's turn is when PEND is.
-/

namespace Sys2Proof.Machine

theorem step_of_events_nil {s : State} (h : s.events = []) : step s = engineTurn s := by
  rw [step, nextEvent, h]

theorem step_of_events_cons {s : State} {e : Event} {es : List Event} (h : s.events = e :: es) :
    step s = runEvent e { s with events := es } := by
  rw [step, nextEvent, h]

theorem engineTurn_of_idle {s : State} (h : s.pend = none) : engineTurn s = .next s := by
  rw [engineTurn, h]

theorem engineTurn_of_decode {s : State} {c : Word} {i : Instr} (hp : s.pend = some c) (hd : decode c = .ok i) :
    engineTurn s = exec i s := by
  simp only [engineTurn, hp, hd]

theorem decode_encode {i : Instr} (h : i.wellFormed = true) : decode (encode i) = .ok i := by
  cases i with
  | rndenc r | rnddec r =>
    have hr : r < 16 := of_decide_eq_true h
    interval_cases r <;> rfl
  | _ => rfl

/-- Settles O7: the event at the head of the list is the one `runEvent` runs. -/
theorem stepRunsOneEvent : Obligations.StepRunsOneEvent := by
  intro s es
  refine ⟨fun a w h => step_of_events_cons h, fun a w v h => step_of_events_cons h, fun h => step_of_events_cons h,
    fun h hp => ?_, fun h hp => ?_⟩
  · exact (step_of_events_cons h).trans (engineTurn_of_idle hp)
  · exact (step_of_events_nil h).trans (engineTurn_of_idle hp)

/-- Settles O6: the engine's turn decodes PEND, and the encoded word decodes to the instruction it was made of. -/
theorem stepRunsThePendingCommand : Obligations.StepRunsThePendingCommand := by
  refine ⟨fun s c i hp hd => ⟨fun h => ?_, fun es h => ?_⟩, fun s i hi => ?_⟩
  · exact (step_of_events_nil h).trans (engineTurn_of_decode hp hd)
  · exact (step_of_events_cons h).trans (engineTurn_of_decode hp hd)
  · have hword : s.withFetchWord 32 (encode i).toNat = placeCommand (encode i) s := by
      rw [State.withFetchWord, Nat.mod_eq_of_lt (encode i).isLt, BitVec.ofNat_toNat, BitVec.setWidth_eq]
    calc step (s.withFetchWord 32 (encode i).toNat) = step (placeCommand (encode i) s) := by rw [hword]
      _ = engineTurn (accept (encode i) s) := step_of_events_cons (placeCommand_events _ s)
      _ = exec i (accept (encode i) s) := engineTurn_of_decode (accept_pend _ s) (decode_encode hi)

end Sys2Proof.Machine
end

section
/-!
SUPPORT. A host access whose place and form are known (rules R60 to R64): the reply of a read, the case of a write,
and the name of a refusal.
-/

namespace Sys2Proof.Machine

/-- The list of coming events is no register. -/
theorem readReg_withEvents (s : State) (es : List Event) (r : Reg) :
    readReg { s with events := es } r = readReg s r := by
  cases r <;> rfl

theorem memRead_withEvents (off : Nat) (s : State) (es : List Event) :
    memRead off { s with events := es } = memRead off s := by
  simp only [memRead, readReg_withEvents]

section
variable {s : State} {off : Nat} {es : List Event} (hin : off < windowSize) (ha : off % 4 = 0)
include hin ha

theorem step_hostRead (h : s.events = .hostRead (Config.tfBase + off) 4 :: es) :
    step s = .next { s with events := es, replies := memRead off s :: s.replies } := by
  calc step s = busRead (Config.tfBase + off) 4 { s with events := es } := step_of_events_cons h
    _ = readAt off 4 { s with events := es } := busRead_base off 4 _
    _ = _ := readAt_next.mpr ⟨hin, ⟨rfl, ha⟩, by rw [memRead_withEvents off s es]⟩

theorem step_hostWrite {v : Word} (h : s.events = .hostWrite (Config.tfBase + off) 4 v :: es) :
    step s = .next (memWrite off v { s with events := es }) := by
  calc step s = busWrite (Config.tfBase + off) 4 v { s with events := es } := step_of_events_cons h
    _ = writeAt off 4 v { s with events := es } := busWrite_base off 4 v _
    _ = _ := writeAt_next.mpr ⟨hin, ⟨rfl, ha⟩, rfl⟩

end

theorem memWrite_of_busy {off : Nat} {s : State} (h8 : off ≠ 0x008) (h : s.status.busy = true) (v : Word) :
    memWrite off v s = raise .busy (BitVec.ofNat 32 off) s := by
  rw [memWrite, if_neg h8, if_pos h]

/-- Rule R64 (e): an idle write to a read-only register or a reserved offset. -/
theorem memWrite_of_not_isRW {off : Nat} {s : State} (h8 : off ≠ 0x008) (h4 : off ≠ 0x004)
    (hr : ∀ r : Reg, r.offset = off → r.isRW = false) (h : s.status.busy = false) (v : Word) :
    memWrite off v s = raise .badAccess (BitVec.ofNat 32 off) s := by
  obtain ⟨hstatus, -⟩ | ⟨-, hb, -⟩ | ⟨hcmd, -⟩ | ⟨r, hoff, hrw, -⟩ | ⟨-, -, -, -, heq⟩ := memWrite_cases off v s
  · exact absurd hstatus h8
  · exact absurd hb (by simp [h])
  · exact absurd hcmd h4
  · exact absurd hrw (by simp [hr r hoff])
  · exact heq

theorem step_hostWrite_of_busy {off : Nat} {s : State} (hin : off < windowSize) (ha : off % 4 = 0) (h8 : off ≠ 0x008)
    (h : s.status.busy = true) (v : Word) (es : List Event) :
    step { s with events := .hostWrite (Config.tfBase + off) 4 v :: es } =
      .next (raise .busy (BitVec.ofNat 32 off) { s with events := es }) :=
  (step_hostWrite hin ha rfl).trans (congrArg _ (memWrite_of_busy (s := { s with events := es }) h8 h v))

theorem step_hostWrite_of_isRW {r : Reg} {s : State} (hr : r.isRW = true) (h : s.status.busy = false) (v : Word)
    (es : List Event) :
    step { s with events := .hostWrite (Config.tfBase + r.offset) 4 v :: es } =
      .next (writeReg { s with events := es } r v) :=
  (step_hostWrite r.offset_lt r.offset_aligned rfl).trans
    (congrArg _ (memWrite_of_isRW (s := { s with events := es }) hr h v))

theorem readAt_misaligned {off width : Nat} (hin : off < windowSize) (ha : ¬ alignedAccess off width) (s : State) :
    readAt off width s = .refused .misalignedAccess := by
  rw [readAt, if_pos hin, if_neg ha]

theorem writeAt_misaligned {off width : Nat} (hin : off < windowSize) (ha : ¬ alignedAccess off width) (v : Word)
    (s : State) : writeAt off width v s = .refused .misalignedAccess := by
  rw [writeAt, if_pos hin, if_neg ha]

theorem busRead_outside {addr : Nat} (h : addr < Config.tfBase ∨ Config.tfBase + windowSize ≤ addr) (width : Nat)
    (s : State) : busRead addr width s = .refused .outsideWindow := by
  obtain hbelow | habove := h
  · rw [busRead, if_neg (by omega)]
  · rw [busRead, if_pos (by omega), readAt, if_neg (by omega)]

theorem busWrite_outside {addr : Nat} (h : addr < Config.tfBase ∨ Config.tfBase + windowSize ≤ addr) (width : Nat)
    (v : Word) (s : State) : busWrite addr width v s = .refused .outsideWindow := by
  obtain hbelow | habove := h
  · rw [busWrite, if_neg (by omega)]
  · rw [busWrite, if_pos (by omega), writeAt, if_neg (by omega)]

/-- Settles O11: the reply is the value at the offset, and nothing but the reply is written. -/
theorem readsHaveNoSideEffect : Obligations.ReadsHaveNoSideEffect := by
  intro s off es hin ha hevents
  refine ⟨step_hostRead hin ha hevents, ?_, fun h => memRead_reserved h s⟩
  rintro r rfl
  exact memRead_offset r s

/-- Settles O12: the step is the register write, whose case the offset and BUSY choose. -/
theorem writesFollowTheFiveCases : Obligations.WritesFollowTheFiveCases := by
  intro s off v es hin ha hevents
  let u : State := { s with events := es }
  refine ⟨memWrite off v u, step_hostWrite hin ha hevents, ?_, ?_, ?_, ?_, ?_⟩
  · rintro rfl
    exact memWrite_status v u
  · exact fun h8 hb => memWrite_of_busy (s := u) h8 hb v
  · rintro rfl hb
    exact memWrite_cmd (s := u) hb v
  · rintro r rfl hrw hb
    rw [memWrite_of_isRW (s := u) hrw hb]
    refine ⟨readReg_writeReg_self hrw u v, fun r' hr' => ?_, ?_⟩
    · rw [readReg_writeReg_ne hr', readReg_withEvents]
    · simp [u]
  · exact fun h8 h4 hr hb => memWrite_of_not_isRW (s := u) h8 h4 hr hb v

/-- Settles O13: an address is placed against the window first, then the access's form is checked. -/
theorem otherAccessesAreRefused : Obligations.OtherAccessesAreRefused := by
  intro s width v es
  refine ⟨fun off hin hform => ?_, fun addr hout => ⟨fun h => ?_, fun h => ?_⟩⟩
  · have ha : ¬ alignedAccess off width := by rintro ⟨hw, hoff⟩; exact hform.elim (· hw) (· hoff)
    refine ⟨fun h => ?_, fun h => ?_⟩
    · calc step s = busRead (Config.tfBase + off) width { s with events := es } := step_of_events_cons h
        _ = readAt off width { s with events := es } := busRead_base off width _
        _ = .refused .misalignedAccess := readAt_misaligned hin ha _
    · calc step s = busWrite (Config.tfBase + off) width v { s with events := es } := step_of_events_cons h
        _ = writeAt off width v { s with events := es } := busWrite_base off width v _
        _ = .refused .misalignedAccess := writeAt_misaligned hin ha v _
  · exact (step_of_events_cons h).trans (busRead_outside hout width _)
  · exact (step_of_events_cons h).trans (busWrite_outside hout width v _)

end Sys2Proof.Machine
end

section
/-!
SUPPORT. Host accesses while a command is pending (rules R64, R67, R71, R73): what they leave unchanged, and what a
run of them answers.
-/

namespace Sys2Proof.Machine

theorem run_succ {s t : State} (h : step s = .next t) (n : Nat) : core.run (n + 1) s = core.run n t := by
  have hstep : core.step s = .next t := h
  simp only [Host.Core.run, hstep]

/-- The event is taken off the list before it runs, and adds none. -/
theorem Effect.events_eq {s t : State} {e : Event} (h : Effect s e t) : t.events = s.events := by
  cases h with
  | completion _ _ hc => cases hc <;> rfl
  | data _ v r => exact writeReg_events s r v
  | _ => rfl

@[simp] theorem memWrite_events (off : Nat) (v : Word) (s : State) : (memWrite off v s).events = s.events :=
  (memWrite_effect 0 off v s).events_eq

/-- An access by the host. -/
def Event.FromHost (e : Event) : Prop := (∃ a w, e = .hostRead a w) ∨ ∃ a w v, e = .hostWrite a w v

/-- `t` holds the pending command of `s`, with everything it works from and every result register. -/
structure SamePending (s t : State) : Prop where
  pend : t.pend = s.pend
  cmd : t.cmd = s.cmd
  busy : t.status.busy = s.status.busy
  keyValid : t.status.keyValid = s.status.keyValid
  key : t.key = s.key
  din : t.din = s.din
  opa : t.opa = s.opa
  opb : t.opb = s.opb
  opc : t.opc = s.opc
  sched : t.sched = s.sched
  dout : t.dout = s.dout
  res : t.res = s.res
  resHi : t.resHi = s.resHi

theorem SamePending.refl (s : State) : SamePending s s := by
  constructor <;> rfl

theorem SamePending.trans {s t u : State} (h : SamePending s t) (h' : SamePending t u) : SamePending s u where
  pend := h'.pend.trans h.pend
  cmd := h'.cmd.trans h.cmd
  busy := h'.busy.trans h.busy
  keyValid := h'.keyValid.trans h.keyValid
  key := h'.key.trans h.key
  din := h'.din.trans h.din
  opa := h'.opa.trans h.opa
  opb := h'.opb.trans h.opb
  opc := h'.opc.trans h.opc
  sched := h'.sched.trans h.sched
  dout := h'.dout.trans h.dout
  res := h'.res.trans h.res
  resHi := h'.resHi.trans h.resHi

/-- While busy a write reaches STATUS's clearing bits and the error record, nothing else (rule R64 (a), (b)). -/
theorem samePending_memWrite {s : State} (h : s.status.busy = true) (off : Nat) (v : Word) :
    SamePending s (memWrite off v s) := by
  by_cases h8 : off = 0x008
  · rw [h8, memWrite_status]
    constructor <;> rfl
  · rw [memWrite_of_busy h8 h]
    constructor <;> simp

theorem step_fromHost_of_busy {s : State} {e : Event} {es : List Event} (hevents : s.events = e :: es)
    (hhost : e.FromHost) (hadm : e.Admitted) (hb : s.status.busy = true) :
    ∃ t, step s = .next t ∧ t.events = es ∧ SamePending s t := by
  obtain ⟨a, w, rfl⟩ | ⟨a, w, v, rfl⟩ := hhost <;> obtain ⟨off, rfl, hin, rfl, ha⟩ := hadm
  · exact ⟨_, step_hostRead hin ha hevents, rfl, { SamePending.refl s with }⟩
  · exact ⟨_, step_hostWrite hin ha hevents, memWrite_events off v _,
      { samePending_memWrite (s := { s with events := es }) hb off v with }⟩

theorem run_fromHost_of_busy {rest : List Event} : ∀ (es : List Event) {s : State}, s.events = es ++ rest →
    (∀ e ∈ es, e.FromHost ∧ e.Admitted) → s.status.busy = true →
    ∃ t, core.run es.length s = .next t ∧ t.events = rest ∧ SamePending s t
  | [], s, hevents, _, _ => ⟨s, rfl, hevents, .refl s⟩
  | e :: es, s, hevents, hhost, hb => by
    obtain ⟨⟨he, hadm⟩, hes⟩ := List.forall_mem_cons.mp hhost
    obtain ⟨t, hstep, hevents, hst⟩ := step_fromHost_of_busy hevents he hadm hb
    obtain ⟨u, hrun, hevents, htu⟩ := run_fromHost_of_busy es hevents hes (hst.busy.trans hb)
    exact ⟨u, (run_succ hstep _).trans hrun, hevents, hst.trans htu⟩

/-- Settles O21: by induction on the list of accesses, each of which leaves BUSY set for the next. -/
theorem operandsAreFrozenWhilePending : Obligations.OperandsAreFrozenWhilePending := by
  intro es rest s ⟨_, hadm⟩ hb hevents hhost
  have hes : ∀ e ∈ es, e.FromHost ∧ e.Admitted := fun e he =>
    ⟨hhost e he, hadm e (hevents ▸ List.mem_append_left rest he)⟩
  obtain ⟨t, hrun, hrest, h⟩ := run_fromHost_of_busy es hevents hes hb
  exact ⟨t, hrun, hrest, h.pend, h.cmd, h.busy.trans hb, h.keyValid, h.key, h.din, h.opa, h.opb, h.opc, h.sched,
    h.dout, h.res, h.resHi⟩

/-- Reads of STATUS first: each answers the same word, and no register changes (rules R63, R71). -/
theorem run_statusReads {rest : List Event} : ∀ (n m : Nat) {s : State},
    s.events = List.replicate n (.hostRead (Config.tfBase + 0x008) 4) ++ rest →
    core.run (n + m) s = core.run m { s with
      events := rest, replies := List.replicate n s.status.toWord ++ s.replies }
  | 0, m, s, hevents => by
    obtain rfl : s.events = rest := hevents
    rw [Nat.zero_add]
    rfl
  | n + 1, m, s, hevents => by
    rw [Nat.add_right_comm, run_succ (step_hostRead (by decide) rfl hevents), run_statusReads n m rfl, memRead_status,
      List.append_cons, ← List.replicate_succ']

end Sys2Proof.Machine
end

section
/-!
SUPPORT. The completion of a pending command (rules R102 to R104, R253): it always takes place, and depends neither
on the error record nor on the host's side of the port.
-/

namespace Sys2Proof.Machine

section
variable {c : Word} (hrsvd : rsvdOf c = 0)
include hrsvd

theorem exists_decodePlain (hridx : ridxOf c = 0) (hsel : selOf c = false) (i : Instr) :
    ∃ j, decodePlain c i = .ok j :=
  ⟨_, if_pos ⟨hrsvd, hridx, hsel⟩⟩

theorem exists_decodeSel (hridx : ridxOf c = 0) (i0 i1 : Instr) : ∃ j, decodeSel c i0 i1 = .ok j :=
  ⟨_, if_pos ⟨hrsvd, hridx⟩⟩

theorem exists_decodeRound (hsel : selOf c = false) (i : Nat → Instr) : ∃ j, decodeRound c i = .ok j :=
  ⟨_, if_pos ⟨hrsvd, hsel⟩⟩

end

/-- A word that passes its checks is a command (rules R86, R104). -/
theorem exists_decode_of_check {c : Word} {kv : Bool} (h : check c kv = none) : ∃ i, decode c = .ok i := by
  simp only [check] at h
  split_ifs at h with hop hrsvd hridx hsel
  rw [ne_eq, not_not] at hrsvd
  have hridx : opcodeOf c ∉ [0x04#8, 0x05#8] → ridxOf c = 0 := by simpa using hridx
  have hsel : opcodeOf c ∉ [0x06#8, 0x11#8, 0x12#8, 0x13#8] → selOf c = false := by simpa using hsel
  simp only [List.mem_cons, List.not_mem_nil, or_false] at hop
  rw [decode]
  rcases hop with h | h | h | h | h | h | h | h | h | h | h | h | h | h <;> rw [h] at hridx hsel ⊢
  iterate 4 exact exists_decodePlain hrsvd (hridx (by decide)) (hsel (by decide)) _
  iterate 2 exact exists_decodeRound hrsvd (hsel (by decide)) _
  · exact exists_decodeSel hrsvd (hridx (by decide)) _ _
  · exact exists_decodePlain hrsvd (hridx (by decide)) (hsel (by decide)) _
  iterate 3 exact exists_decodeSel hrsvd (hridx (by decide)) _ _
  iterate 3 exact exists_decodePlain hrsvd (hridx (by decide)) (hsel (by decide)) _

theorem EngineInv.busy_of_pend {s : State} {c : Word} (h : EngineInv s) (hp : s.pend = some c) :
    s.status.busy = true := by
  rw [h.busy_pend, hp, Option.isSome_some]

/-- A pending command has a completion: its word passed its checks, and no command fails (rules R103, R104). -/
theorem EngineInv.exists_completion {s : State} {c : Word} (h : EngineInv s) (hp : s.pend = some c) :
    ∃ i t, decode c = .ok i ∧ exec i s = .next t := by
  obtain ⟨i, hd⟩ := exists_decode_of_check (h.pend_legal c hp)
  obtain ⟨t, ht, -⟩ := exec_status i s
  exact ⟨i, t, hd, ht⟩

/-- No command reads or writes the host's side of the port (rule R41). -/
theorem exec_withPort {i : Instr} {s t : State} (h : exec i s = .next t) (es : List Event) (rs : List Word) :
    exec i { s with events := es, replies := rs } = .next { t with events := es, replies := rs } := by
  cases i <;> cases h <;> rfl

theorem complete_raise (e : ErrCode) (info : Word) (s : State) :
    complete (raise e info s) = raise e info (complete s) := by
  rw [complete, raise, Status.recorded_completed]
  rfl

theorem completeKeyed_raise (k : Schedule) (e : ErrCode) (info : Word) (s : State) :
    complete { raise e info s with sched := k, status := (raise e info s).status.keyed } =
      raise e info (complete { s with sched := k, status := s.status.keyed }) := by
  rw [← complete_raise, raise_status, Status.recorded_keyed]
  rfl

theorem completeResult_raise (lo hi : Word) (e : ErrCode) (info : Word) (s : State) :
    completeResult lo hi (raise e info s) = raise e info (completeResult lo hi s) :=
  complete_raise e info { s with res := lo, resHi := hi }

theorem completeBlock_raise (b : Quad) (e : ErrCode) (info : Word) (s : State) :
    completeBlock b (raise e info s) = raise e info (completeBlock b s) :=
  complete_raise e info { s with dout := b }

/-- Rule R253: a command completes as if the error had not been recorded, and the record is the same. -/
theorem exec_raise {i : Instr} {s t : State} (h : exec i s = .next t) (e : ErrCode) (info : Word) :
    exec i (raise e info s) = .next (raise e info t) := by
  cases i <;> cases h <;> refine congrArg Host.Outcome.next ?_
  case nop => exact complete_raise e info s
  case keysched => exact completeKeyed_raise _ e info s
  case encrypt | decrypt | rndenc | rnddec | whitenIn | whitenOut => exact completeBlock_raise _ e info s
  all_goals exact completeResult_raise _ _ e info s

theorem Completion.din_err {s t : State} {i : Instr} (h : Completion s i t) :
    t.din = s.din ∧ t.status.err = s.status.err := by
  cases h <;> exact ⟨rfl, rfl⟩

/-- The engine's turn with a command pending, whatever else is coming and has been answered. -/
theorem step_engine_of_exec {s t : State} {c : Word} {i : Instr} (hp : s.pend = some c) (hd : decode c = .ok i)
    (he : exec i s = .next t) (es : List Event) (rs : List Word) :
    step { s with events := .engine :: es, replies := rs } = .next { t with events := es, replies := rs } := by
  let u : State := { s with events := es, replies := rs }
  calc step { s with events := .engine :: es, replies := rs } = engineTurn u :=
        step_of_events_cons (e := .engine) rfl
    _ = exec i u := engineTurn_of_decode hp hd
    _ = .next { t with events := es, replies := rs } := exec_withPort he es rs

/-- Settles O22: the completion commutes with recording the error, so both orders leave its results, one with the
data written and one with the error recorded. -/
theorem writeRacesWithCompletion : Obligations.WriteRacesWithCompletion := by
  intro s c v hinv hp herr _
  obtain ⟨i, p, hd, he⟩ := hinv.exists_completion hp
  obtain ⟨hpend, hidle, -⟩ := (exec_cases he).pend_status
  obtain ⟨hdin, hperr⟩ := (exec_cases he).din_err
  have hbusy := hinv.busy_of_pend hp
  let p' : State := { p with events := [], replies := s.replies }
  refine ⟨writeReg p' (.din 0) v, raise .busy 0x020 p', ?_, ?_, ?_⟩
  · have hland := step_hostWrite_of_isRW (r := .din 0) (s := p') rfl hidle v []
    exact (run_succ (step_engine_of_exec hp hd he _ _) 1).trans (run_succ hland 0)
  · have hdrop := step_hostWrite_of_busy (off := 0x020) (by decide) rfl (by decide) hbusy v [.engine]
    have hraised := exec_raise he .busy 0x020
    exact (run_succ hdrop 1).trans (run_succ (step_engine_of_exec (s := raise .busy 0x020 s) hp hd hraised _ _) 0)
  · rw [raise_first .busy 0x020 p' (hperr.trans herr)]
    exact ⟨congrArg (Quad.set · 0 v) hdin, hperr.trans herr, hdin, rfl, rfl, rfl, rfl, rfl, rfl, rfl, rfl,
      hpend, hpend⟩

/-- Settles O23: the reads before completion all answer the STATUS word of `s`, the one after it that of the
completed command. -/
theorem anyNumberOfBusyPolls : Obligations.AnyNumberOfBusyPolls := by
  intro n s c hinv hp hreplies hevents
  obtain ⟨i, p, hd, he⟩ := hinv.exists_completion hp
  obtain ⟨-, hidle, hdone⟩ := (exec_cases he).pend_status
  have hbusy := hinv.busy_of_pend hp
  obtain ⟨hbit, -⟩ := s.status.toWord_bits
  obtain ⟨hbit0, hbit1, -⟩ := p.status.toWord_bits
  let polls := List.replicate n s.status.toWord
  refine ⟨{ p with events := [], replies := p.status.toWord :: polls }, p.status.toWord, polls, ?_, rfl,
    List.length_replicate, hbit0.trans hidle, hbit1.trans hdone, fun x hx => ?_⟩
  · rw [run_statusReads n 2 hevents, hreplies, List.append_nil, run_succ (step_engine_of_exec hp hd he _ _),
      run_succ (step_hostRead (by decide) rfl rfl), memRead_status]
    rfl
  · rw [List.eq_of_mem_replicate hx, hbit, hbusy]

end Sys2Proof.Machine
end

section
/-!
SUPPORT. Encoding and decoding undo each other (rules R81, R84, R85, R87, R90). `decode_encode` is one direction,
`encode_of_decode` the other; what is left is that the decoder gives well-formed instructions only.
-/

namespace Sys2Proof.Machine

/-- The opcodes of rule R85's map. -/
abbrev legalOpcodes : List Byte :=
  [0x00#8, 0x01#8, 0x02#8, 0x03#8, 0x04#8, 0x05#8, 0x06#8, 0x10#8, 0x11#8, 0x12#8, 0x13#8, 0x14#8, 0x15#8, 0x16#8]

/-- What the decoder can answer once the opcode is legal (rule R87). -/
def ReservedOrCommand (o : Except DecodeError Instr) : Prop :=
  o = .error .reservedField ∨ ∃ i, o = .ok i ∧ i.wellFormed = true

theorem reservedOrCommand_decodePlain (c : Word) {i : Instr} (hi : i.wellFormed = true) :
    ReservedOrCommand (decodePlain c i) := by
  unfold decodePlain
  split
  · exact .inr ⟨i, rfl, hi⟩
  · exact .inl rfl

theorem reservedOrCommand_decodeSel (c : Word) {i0 i1 : Instr} (h0 : i0.wellFormed = true)
    (h1 : i1.wellFormed = true) : ReservedOrCommand (decodeSel c i0 i1) := by
  unfold decodeSel
  split
  · exact .inr ⟨_, rfl, by split <;> assumption⟩
  · exact .inl rfl

theorem reservedOrCommand_decodeRound (c : Word) {i : Nat → Instr} (hi : ∀ r < 16, (i r).wellFormed = true) :
    ReservedOrCommand (decodeRound c i) := by
  unfold decodeRound
  split
  · exact .inr ⟨_, rfl, hi _ (ridxOf c).isLt⟩
  · exact .inl rfl

theorem decode_of_legal {c : Word} (h : opcodeOf c ∈ legalOpcodes) : ReservedOrCommand (decode c) := by
  simp only [List.mem_cons, List.not_mem_nil, or_false] at h
  rw [decode]
  rcases h with h | h | h | h | h | h | h | h | h | h | h | h | h | h <;> rw [h]
  iterate 4 exact reservedOrCommand_decodePlain c rfl
  iterate 2 exact reservedOrCommand_decodeRound c fun _ => decide_eq_true
  · exact reservedOrCommand_decodeSel c rfl rfl
  · exact reservedOrCommand_decodePlain c rfl
  iterate 3 exact reservedOrCommand_decodeSel c rfl rfl
  iterate 3 exact reservedOrCommand_decodePlain c rfl

theorem decode_of_illegal {c : Word} (h : opcodeOf c ∉ legalOpcodes) : decode c = .error .illegalOpcode := by
  simp only [List.mem_cons, List.not_mem_nil, or_false, not_or] at h
  simp [decode, h]

/-- The round index of a decoded command is a 4-bit field (rule R81). -/
theorem wellFormed_of_decode {c : Word} {i : Instr} (h : decode c = .ok i) : i.wellFormed = true := by
  by_cases hop : opcodeOf c ∈ legalOpcodes
  · obtain herr | ⟨j, hj, hwf⟩ := decode_of_legal hop
    · cases h.symm.trans herr
    · cases h.symm.trans hj
      exact hwf
  · cases h.symm.trans (decode_of_illegal hop)

/-- A 4-bit field of a word holds a round index as it is (rule R81). -/
theorem setWidth_ofNat_four {r : Nat} (h : r < 16) : (BitVec.ofNat 4 r).setWidth 32 = BitVec.ofNat 32 r := by
  apply BitVec.eq_of_toNat_eq
  rw [BitVec.toNat_setWidth, BitVec.toNat_ofNat, BitVec.toNat_ofNat, Nat.mod_eq_of_lt h]

/-- A word that encodes a well-formed instruction decodes to it. -/
theorem decode_of_encode_eq {i : Instr} {c : Word} (hi : i.wellFormed = true) (h : encode i = c) :
    decode c = .ok i := h ▸ decode_encode hi

/-- Settles O1: the decoder on each constructor's word, with each of the sixteen round indices. -/
theorem decodeOfEncode : Obligations.DecodeOfEncode := fun _ => decode_encode

/-- Settles O2: a word is its four fields, and each field the decoder does not read is 0. -/
theorem encodeOfDecode : Obligations.EncodeOfDecode := fun _ _ h => ⟨wellFormed_of_decode h, encode_of_decode h⟩

/-- Settles O3: the words are the encoder's, so the decoder gives the mnemonics back. -/
theorem everyMnemonicHasItsWord : Obligations.EveryMnemonicHasItsWord := by
  refine ⟨fun p hp => ?_, fun r hr => ?_⟩
  · obtain ⟨hwf, hword⟩ : p.1.wellFormed = true ∧ encode p.1 = p.2 := by
      revert p
      decide
    exact ⟨hword, decode_of_encode_eq hwf hword⟩
  · have henc : encode (.rndenc r) = 0x00000004#32 ||| (BitVec.ofNat 32 r <<< 8) := by
      rw [encode, setWidth_ofNat_four hr]
    have hdec : encode (.rnddec r) = 0x00000005#32 ||| (BitVec.ofNat 32 r <<< 8) := by
      rw [encode, setWidth_ofNat_four hr]
    exact ⟨henc, decode_of_encode_eq (decide_eq_true hr) henc, hdec, decode_of_encode_eq (decide_eq_true hr) hdec⟩

end Sys2Proof.Machine
end

section
/-!
SUPPORT. The checks at presentation (rule R86) beside the decoder (rule R87), and the words neither accepts.
-/

namespace Sys2Proof.Machine

/-- The fields that must be 0 for the word's opcode are not all 0 (rules R81 to R84, R86). -/
abbrev ForbiddenField (c : Word) : Prop :=
  rsvdOf c ≠ 0 ∨ opcodeOf c ∉ [0x04#8, 0x05#8] ∧ ridxOf c ≠ 0 ∨
    opcodeOf c ∉ [0x06#8, 0x11#8, 0x12#8, 0x13#8] ∧ selOf c = true

theorem check_of_illegal {c : Word} (h : opcodeOf c ∉ legalOpcodes) (kv : Bool) :
    check c kv = some .illegalOpcode := if_pos h

theorem check_of_forbidden {c : Word} (h : opcodeOf c ∈ legalOpcodes) (hf : ForbiddenField c) (kv : Bool) :
    check c kv = some .reservedField := by
  simp only [check]
  rw [if_neg (not_not.mpr h)]
  obtain hrsvd | hridx | hsel := hf
  · rw [if_pos hrsvd]
  · rw [if_pos hridx, ite_self]
  · rw [if_pos hsel, ite_self, ite_self]

/-- With a key valid, rule R86 has no test left that fails. -/
theorem check_of_not_forbidden {c : Word} (h : opcodeOf c ∈ legalOpcodes) (hf : ¬ ForbiddenField c) :
    check c true = none := by
  obtain ⟨hrsvd, hridx, hsel⟩ : ¬ _ ∧ ¬ _ ∧ ¬ _ := by simpa only [not_or] using hf
  simp only [check]
  rw [if_neg (not_not.mpr h), if_neg hrsvd, if_neg hridx, if_neg hsel, if_neg (fun hkey => nomatch hkey.2)]

/-- A command's word passes its checks but for the key condition (rules R85, R86). -/
theorem check_of_decode_ok {c : Word} {i : Instr} (h : decode c = .ok i) (kv : Bool) :
    check c kv = if i.needsKey = true ∧ kv = false then some .noKey else none := by
  obtain ⟨hkeyed, hkeyless⟩ := encodedIsLegal i (wellFormed_of_decode h)
  rw [encode_of_decode h] at hkeyed hkeyless
  cases kv with
  | true => simp [hkeyed]
  | false => simp [hkeyless]

theorem check_of_decode_illegal {c : Word} (h : decode c = .error .illegalOpcode) (kv : Bool) :
    check c kv = some .illegalOpcode := by
  refine check_of_illegal (fun hop => ?_) kv
  obtain hres | ⟨i, hi, -⟩ := decode_of_legal hop
  · cases h.symm.trans hres
  · cases h.symm.trans hi

theorem check_of_decode_reserved {c : Word} (h : decode c = .error .reservedField) (kv : Bool) :
    check c kv = some .reservedField := by
  have hop : opcodeOf c ∈ legalOpcodes := by
    by_contra hop
    cases h.symm.trans (decode_of_illegal hop)
  have hf : ForbiddenField c := by
    by_contra hf
    obtain ⟨i, hi⟩ := exists_decode_of_check (check_of_not_forbidden hop hf)
    cases h.symm.trans hi
  exact check_of_forbidden hop hf kv

/-- Settles O4: the decoder's answer decides the answer of the checks, whatever KEYVALID is. -/
theorem checkAgreesWithDecoder : Obligations.CheckAgreesWithDecoder := by
  intro c kv
  cases hd : decode c with
  | ok i => cases hkey : i.needsKey <;> cases kv <;> simp [check_of_decode_ok hd, hkey]
  | error e =>
    cases e with
    | illegalOpcode => simp [check_of_decode_illegal hd]
    | reservedField => simp [check_of_decode_reserved hd]

/-- The map of rule R85 has no gaps but `0x07..0x0F` and `0x17..0xFF`. -/
theorem mem_legalOpcodes {op : Byte} : op ∈ legalOpcodes ↔ op ≤ 0x06#8 ∨ 0x10#8 ≤ op ∧ op ≤ 0x16#8 := by
  simp only [List.mem_cons, List.not_mem_nil, or_false]
  bv_omega

section
variable {i : Instr} (h : ∀ s : State, exec i s = .next (complete s))
include h

/-- A command whose completion is the generic one keeps DOUT, so what it leaves depends on DOUT. -/
theorem not_overwrites_dout : ¬ ∀ (s : State) (b : Quad), exec i { s with dout := b } = exec i s := fun hsame => by
  have hone := hsame State.reset ⟨1, 0, 0, 0⟩
  rw [h, h] at hone
  cases congrArg State.dout (Host.Outcome.next.inj hone)

theorem not_overwrites_resHi : ¬ ∀ (s : State) (v : Word), exec i { s with resHi := v } = exec i s := fun hsame => by
  have hone := hsame State.reset 1
  rw [h, h] at hone
  cases congrArg State.resHi (Host.Outcome.next.inj hone)

/-- Every command but `tf.nop` has an effect of its own: it sets KEYVALID, or overwrites DOUT or RESHI. -/
theorem eq_nop_of_exec_eq_complete : i = .nop := by
  cases i with
  | nop => rfl
  | keysched => cases congrArg (fun s : State => s.status.keyValid) (Host.Outcome.next.inj (h State.reset))
  | encrypt | decrypt | rndenc | rnddec | whitenIn | whitenOut =>
    exact absurd (fun _ _ => rfl) (not_overwrites_dout h)
  | _ => exact absurd (fun _ _ => rfl) (not_overwrites_resHi h)

end

/-- Settles O5: the error is that of the check that fails first, and a word that acts as the no-op is the one word of
`tf.nop`. -/
theorem illegalAndReservedEncodings : Obligations.IllegalAndReservedEncodings := by
  refine ⟨fun c s hbusy hop => ?_, fun c s hbusy hop hf => ?_, fun c i hd hnop => ?_⟩
  · have hillegal : opcodeOf c ∉ legalOpcodes := by
      rw [mem_legalOpcodes]
      bv_omega
    rw [memWrite_cmd hbusy, present_of_check_some (check_of_illegal hillegal _)]
  · rw [memWrite_cmd hbusy, present_of_check_some (check_of_forbidden (mem_legalOpcodes.mpr hop) hf _)]
  · cases eq_nop_of_exec_eq_complete hnop
    exact (encode_of_decode hd).symm

end Sys2Proof.Machine
end

section
/-!
SUPPORT. The notional host of rules R91, R92: a turn whose operation is known, and the two pseudo-instructions that
leave a value in h15.
-/

namespace Sys2Proof.Machine

/-- The operations of a block that stands in a program are the program's operations there. -/
theorem getElem?_of_block {prog block : List HostOp} {n l k : Nat} (h : (prog.drop n).take l = block) (hk : k < l) :
    prog[n + k]? = block[k]? := by
  rw [← h, List.getElem?_take_of_lt hk, List.getElem?_drop]

theorem hostTurns_succ {prog : List HostOp} {y z : System} {op : HostOp} (hop : prog[y.host.next]? = some op)
    (h : hostOp op y = .next z) (k : Nat) : hostTurns prog (k + 1) y = hostTurns prog k z := by
  simp only [hostTurns, hostTurn, hop, h]

/-- The system after the host has read register `r` into `hd`: the value is in `hd` and in the replies. -/
def System.received (y : System) (hd : Fin 16) (r : Reg) : System :=
  ⟨y.host.setReg hd (readReg y.engine r), { y.engine with replies := readReg y.engine r :: y.engine.replies }⟩

theorem hostOp_rd (hd : Fin 16) (r : Reg) (y : System) : hostOp (.rd hd r.offset) y = .next (y.received hd r) := by
  have hread : readAt r.offset 4 y.engine = .next _ := readAt_next.mpr ⟨r.offset_lt, ⟨rfl, r.offset_aligned⟩, rfl⟩
  simp only [hostOp, System.read, hread, memRead_offset, System.received]

/-- `wr NAME, hs` to an RW register while idle. -/
theorem hostOp_wr {r : Reg} {y : System} (hr : r.isRW = true) (h : y.engine.status.busy = false) (hs : Fin 16) :
    hostOp (.wr r.offset hs) y =
      .next ⟨⟨y.host.h, y.host.next + 1⟩, writeReg y.engine r y.host.h[hs]⟩ := by
  have hwrite : writeAt r.offset 4 y.host.h[hs] y.engine = .next _ :=
    writeAt_next.mpr ⟨r.offset_lt, ⟨rfl, r.offset_aligned⟩, rfl⟩
  simp only [hostOp, System.write, hwrite, memWrite_of_isRW hr h]

/-! ### `wait` -/

/-- The poll loop's mask keeps BUSY (rule R24). -/
theorem Status.toWord_and_one (t : Status) : t.toWord &&& 1#32 = bitAt t.busy 0 := by
  obtain ⟨hbusy, -⟩ := t.toWord_bits
  rw [BitVec.and_one_eq_setWidth_ofBool_getLsbD, hbusy, bitAt, BitVec.shiftLeft_zero]

/-- The system after one round of the poll loop. -/
def System.polled (y : System) : System :=
  ⟨⟨y.host.h.set 15 (bitAt y.engine.status.busy 0),
      if y.engine.status.busy = true then y.host.next else y.host.next + 3⟩,
    { y.engine with replies := y.engine.status.toWord :: y.engine.replies }⟩

theorem hostTurns_wait {prog : List HostOp} {y : System} (h : (prog.drop y.host.next).take 3 = wait y.host.next) :
    hostTurns prog 3 y = .next y.polled := by
  have hat : ∀ k < 3, prog[y.host.next + k]? = (wait y.host.next)[k]? := fun _ => getElem?_of_block h
  have hrun := (hostTurns_succ (hat 0 (by decide)) (hostOp_rd 15 .status y) 2).trans
    ((hostTurns_succ (hat 1 (by decide)) rfl 1).trans (hostTurns_succ (hat 2 (by decide)) rfl 0))
  rw [hrun]
  cases hb : y.engine.status.busy <;>
    simp [hostTurns, System.polled, System.received, HostState.setReg, HostState.branch, readReg,
      Status.toWord_and_one, hb, bitAt]

/-! ### `cpblk` -/

/-- The system after DOUT word `i` is copied to DIN word `i` through h15. -/
def System.copied (y : System) (i : Fin 4) : System :=
  ⟨⟨y.host.h.set 15 (y.engine.dout.get i), y.host.next + 2⟩,
    writeReg { y.engine with replies := y.engine.dout.get i :: y.engine.replies } (.din i) (y.engine.dout.get i)⟩

theorem hostTurns_copy {prog : List HostOp} {y : System} {i : Fin 4} (hidle : y.engine.status.busy = false)
    (hrd : prog[y.host.next]? = some (.rd 15 (Reg.dout i).offset))
    (hwr : prog[y.host.next + 1]? = some (.wr (Reg.din i).offset 15)) (k : Nat) :
    hostTurns prog (k + 2) y = hostTurns prog k (y.copied i) := by
  rw [hostTurns_succ hrd (hostOp_rd 15 (.dout i) y),
    hostTurns_succ hwr (hostOp_wr (r := .din i) (y := y.received 15 (.dout i)) rfl hidle 15)]
  simp [System.copied, System.received, HostState.setReg, readReg]

theorem hostTurns_cpblk {prog : List HostOp} {y : System} (h : (prog.drop y.host.next).take 8 = cpblk)
    (hidle : y.engine.status.busy = false) :
    hostTurns prog 8 y = .next ((((y.copied 0).copied 1).copied 2).copied 3) := by
  have hat : ∀ k < 8, prog[y.host.next + k]? = cpblk[k]? := fun _ => getElem?_of_block h
  rw [hostTurns_copy (i := 0) hidle (hat 0 (by decide)) (hat 1 (by decide)),
    hostTurns_copy (y := y.copied 0) (i := 1) hidle (hat 2 (by decide)) (hat 3 (by decide)),
    hostTurns_copy (y := (y.copied 0).copied 1) (i := 2) hidle (hat 4 (by decide)) (hat 5 (by decide)),
    hostTurns_copy (y := ((y.copied 0).copied 1).copied 2) (i := 3) hidle (hat 6 (by decide)) (hat 7 (by decide)),
    hostTurns]

/-- Settles O59: one round of the poll loop keeps BUSY of the word it read, and the copy is four moves through h15. -/
theorem waitAndCopyBlock : Obligations.WaitAndCopyBlock := by
  refine ⟨fun prog y h => ⟨y.polled, hostTurns_wait h, rfl, fun hb => ?_, fun hb => ?_⟩, fun prog y h hidle =>
    ⟨_, hostTurns_cpblk h hidle, rfl, rfl, rfl, rfl, ?_⟩⟩
  · simp [System.polled, hb, bitAt]
  · simp [System.polled, hb, bitAt]
  · simp [System.copied, Quad.get]

end Sys2Proof.Machine
end

section
/-!
SUPPORT. A command word written to CMD (rules R64, R86, R100, R101), and `tf.nop` (rule R105).
-/

namespace Sys2Proof.Machine

/-- Settles O18: an idle write to CMD is a presentation, whose case the checks choose. -/
theorem presentationAcceptsOrRejects : Obligations.PresentationAcceptsOrRejects := by
  refine fun s c => ⟨fun hidle hc => ?_, fun e hidle hc => ?_, fun hb => memWrite_of_busy (by decide) hb c⟩
  · calc memWrite 0x004 c s = present c s := memWrite_cmd hidle c
      _ = accept c s := present_of_check_none hc
  · calc memWrite 0x004 c s = present c s := memWrite_cmd hidle c
      _ = raise e c s := present_of_check_some hc

theorem droppedWhileBusy (c : Word) : DroppedWhileBusy c := fun _ h => memWrite_of_busy (by decide) h c

/-- The word of a command that needs no key passes its checks with KEYVALID 0 too. -/
theorem acceptedAlways_of_decode {c : Word} {i : Instr} (hd : decode c = .ok i) (hkey : i.needsKey = false) :
    AcceptedAlways c := by
  intro s hidle
  rw [memWrite_cmd hidle, present_of_check_none]
  simp [check_of_decode_ok hd, hkey]

/-- The words that a legal opcode's reserved-field error speaks of have a forbidden field set (rule R86). -/
theorem reservedFieldError_of_forbidden {op : Byte} {forbidden : Word → Prop} (hop : op ∈ legalOpcodes)
    (h : ∀ c, opcodeOf c = op → forbidden c → ForbiddenField c) : ReservedFieldError op forbidden := by
  rintro c s hidle rfl hc
  rw [memWrite_cmd hidle, present_of_check_some (check_of_forbidden hop (h c rfl hc) _)]

/-- A word with RSVD, SEL and RIDX all 0 is its opcode (rule R80). -/
theorem extractLsb'_eq_zero_of_fields {c : Word} (hrsvd : rsvdOf c = 0) (hridx : ridxOf c = 0)
    (hsel : selOf c = false) : c.extractLsb' 8 24 = 0 := by
  have hc : (opcodeOf c).setWidth 32 = c := by simpa [hrsvd, hridx, hsel] using word_of_fields c
  rw [← hc]
  refine BitVec.eq_of_getLsbD_eq fun k _ => ?_
  simp

/-- A command that uses neither RIDX nor SEL forbids every bit above its opcode (rules R81 to R84). -/
theorem reservedFieldError_of_plain {op : Byte} (hop : op ∈ legalOpcodes) (hridx : op ∉ [0x04#8, 0x05#8])
    (hsel : op ∉ [0x06#8, 0x11#8, 0x12#8, 0x13#8]) :
    ReservedFieldError op (fun c => c.extractLsb' 8 24 ≠ 0) := by
  refine reservedFieldError_of_forbidden hop fun c hc hbits => ?_
  subst hc
  by_contra hf
  simp only [ForbiddenField, not_or, not_and, not_not, Bool.not_eq_true] at hf
  obtain ⟨h0, h1, h2⟩ := hf
  exact hbits (extractLsb'_eq_zero_of_fields h0 (h1 hridx) (h2 hsel))

/-- Settles O58: the generic completion, and the presentation of the word 0, which needs no key. -/
theorem nopCommand : Obligations.NopCommand := by
  have haccept : AcceptedAlways 0x00000000#32 := acceptedAlways_of_decode (i := .nop) rfl rfl
  refine ⟨rfl, rfl, fun _ => rfl, haccept,
    reservedFieldError_of_plain (by decide) (by decide) (by decide), droppedWhileBusy _, ?_⟩
  rw [haccept State.reset rfl]
  exact ⟨_, rfl, by decide, by decide⟩

end Sys2Proof.Machine
end

section
/-!
SUPPORT. What a completion leaves unchanged, and that a pending command reaches it (rules R102, R103).
-/

namespace Sys2Proof.Machine

/-- What no completion changes: the error record, CMD and the operands, and the host's side of the port (rule R103). -/
structure CompletionFrame (s t : State) : Prop where
  err : t.status.err = s.status.err
  eovf : t.status.eovf = s.status.eovf
  errCode : t.status.errCode = s.status.errCode
  errInfo : t.errInfo = s.errInfo
  cmd : t.cmd = s.cmd
  key : t.key = s.key
  din : t.din = s.din
  opa : t.opa = s.opa
  opb : t.opb = s.opb
  opc : t.opc = s.opc
  events : t.events = s.events
  replies : t.replies = s.replies

theorem Completion.frame {s t : State} {i : Instr} (h : Completion s i t) : CompletionFrame s t := by
  cases h <;> constructor <;> rfl

/-- Settles O19: a word that passed its checks decodes, every command has a next state, and each of the four shapes
of completion has the generic effects. -/
theorem completionNeverFails : Obligations.CompletionNeverFails := by
  intro s c hp hc
  obtain ⟨i, hd⟩ := exists_decode_of_check hc
  obtain ⟨t, he, -⟩ := exec_status i s
  obtain ⟨hpend, hidle, hdone⟩ := (exec_cases he).pend_status
  have h := (exec_cases he).frame
  exact ⟨i, t, hd, (engineTurn_of_decode hp hd).trans he, he, hidle, hdone, hpend, h.err, h.eovf, h.errCode,
    h.errInfo, h.cmd, h.key, h.din, h.opa, h.opb, h.opc, h.events, h.replies⟩

/-- `t` is a state right after a completion (rule R103). -/
def JustCompleted (t : State) : Prop := t.pend = none ∧ t.status.busy = false ∧ t.status.done = true

theorem EngineInv.exists_engineTurn {s : State} {c : Word} (h : EngineInv s) (hp : s.pend = some c) :
    ∃ t, engineTurn s = .next t ∧ JustCompleted t := by
  obtain ⟨i, t, hd, he⟩ := h.exists_completion hp
  exact ⟨t, (engineTurn_of_decode hp hd).trans he, (exec_cases he).pend_status⟩

/-- A host access keeps the run safe and the command pending, and takes one event off the list (rules R64, R67). -/
theorem Safe.exists_step_fromHost {s : State} {c : Word} {e : Event} {es : List Event} (h : Safe s)
    (hp : s.pend = some c) (hevents : s.events = e :: es) (he : e.FromHost) :
    ∃ t, step s = .next t ∧ Safe t ∧ t.pend = some c ∧ t.events = es := by
  obtain ⟨hinv, hadm⟩ := h
  obtain ⟨hhead, htail⟩ := List.forall_mem_cons.mp (hevents ▸ hadm)
  obtain ⟨t, hstep, rfl, hsame⟩ := step_fromHost_of_busy hevents he hhead (hinv.busy_of_pend hp)
  exact ⟨t, hstep, ⟨stepKeepsTheInvariant s t hinv hstep, htail⟩, hsame.pend.trans hp, rfl⟩

/-- The engine's turn comes at the latest when the events are used up; until then each is a host access. -/
theorem exists_run_justCompleted {c : Word} : ∀ (es : List Event) {s : State}, s.events = es → Safe s →
    s.pend = some c → (∀ e ∈ es, e ≠ .reset) →
    ∃ n t, n ≤ es.length + 1 ∧ core.run n s = .next t ∧ JustCompleted t
  | [], s, hevents, hsafe, hp, _ => by
    obtain ⟨t, hturn, ht⟩ := hsafe.1.exists_engineTurn hp
    exact ⟨1, t, le_rfl, run_succ ((step_of_events_nil hevents).trans hturn) 0, ht⟩
  | e :: es, s, hevents, hsafe, hp, hreset => by
    obtain ⟨he, hes⟩ := List.forall_mem_cons.mp hreset
    have hostAccess : e.FromHost →
        ∃ n t, n ≤ es.length + 1 + 1 ∧ core.run n s = .next t ∧ JustCompleted t := fun hhost => by
      obtain ⟨u, hstep, hsafe, hp, hevents⟩ := hsafe.exists_step_fromHost hp hevents hhost
      obtain ⟨n, t, hn, hrun, ht⟩ := exists_run_justCompleted es hevents hsafe hp hes
      exact ⟨n + 1, t, by omega, (run_succ hstep n).trans hrun, ht⟩
    cases e with
    | engine =>
      have hinv : EngineInv { s with events := es } := { hsafe.1 with }
      obtain ⟨t, hturn, ht⟩ := hinv.exists_engineTurn hp
      exact ⟨1, t, by simp, run_succ ((step_of_events_cons hevents).trans hturn) 0, ht⟩
    | hostRead a w => exact hostAccess (.inl ⟨a, w, rfl⟩)
    | hostWrite a w v => exact hostAccess (.inr ⟨a, w, v, rfl⟩)
    | reset => exact absurd rfl he

/-- Settles O20: by induction on the events to come. -/
theorem acceptedCommandCompletes : Obligations.AcceptedCommandCompletes := fun s _ hsafe hp hreset =>
  exists_run_justCompleted s.events rfl hsafe hp hreset

end Sys2Proof.Machine
end

section
/-!
SUPPORT. The product of rule R120, coefficient by coefficient, and its degree.
-/

namespace Sys2Proof.Machine

/-- A fold that XORs in the chosen terms flips each bit as often as a chosen term holds it. -/
theorem getLsbD_foldl_xor {ι : Type} {w : Nat} (c : ι → Bool) (f : ι → BitVec w) (k : Nat) :
    ∀ (l : List ι) (p : BitVec w), (l.foldl (fun p i => if c i then p ^^^ f i else p) p).getLsbD k =
      (p.getLsbD k ^^ (l.countP (fun i => c i && (f i).getLsbD k) % 2 == 1))
  | [], p => by simp
  | i :: l, p => by
    rw [List.foldl_cons, getLsbD_foldl_xor c f k l, List.countP_cons]
    cases hc : c i with
    | false => simp
    | true =>
      have hflip : ∀ n : Nat, ((n + 1) % 2 == 1) = !(n % 2 == 1) := fun n => by
        rcases Nat.mod_two_eq_zero_or_one n with h | h <;> simp [Nat.add_mod, h]
      cases hf : (f i).getLsbD k <;> simp [hf, hflip]

/-- Rule R120: bit `k` is the parity of the pairs of bits whose places add up to `k`. -/
theorem getLsbD_polyMul (a b : Word) {k : Nat} (hk : k < 64) :
    (polyMul a b).getLsbD k =
      ((List.range 32).countP (fun i => a.getLsbD i && decide (i ≤ k) && b.getLsbD (k - i)) % 2 == 1) := by
  have hterm : ∀ i, (b.setWidth 64 <<< i).getLsbD k = (decide (i ≤ k) && b.getLsbD (k - i)) := fun i => by
    rw [BitVec.getLsbD_shiftLeft, BitVec.getLsbD_setWidth, decide_eq_true hk,
      decide_eq_true (show k - i < 64 by omega), ← decide_not]
    simp
  rw [polyMul, getLsbD_foldl_xor]
  simp only [hterm, Bool.and_assoc, BitVec.ofNat_eq_ofNat, BitVec.getLsbD_zero, Bool.false_xor]

theorem polyMul_zero_right (a : Word) : polyMul a 0 = 0 := by
  rw [polyMul_comm, polyMul_zero_left]

theorem polyMul_one_left (b : Word) : polyMul 1 b = b.setWidth 64 :=
  (polyMul_twoPow_left b (i := 0) (by decide)).trans (BitVec.shiftLeft_zero _)

theorem polyMul_xor_right (a b c : Word) : polyMul a (b ^^^ c) = polyMul a b ^^^ polyMul a c := by
  rw [polyMul_comm, polyMul_xor_left, polyMul_comm b, polyMul_comm c]

/-- Two words have degree at most 31, so their product has degree at most 62. -/
theorem getLsbD_polyMul_top (a b : Word) : (polyMul a b).getLsbD 63 = false := by
  have hword : ∀ x : Word, (bitPoly x).natDegree ≤ 31 := fun x =>
    natDegree_bitPoly_le_iff.mpr fun j hj => BitVec.getLsbD_of_ge x j hj
  have hdeg : (bitPoly (polyMul a b)).natDegree ≤ 62 := by
    rw [bitPoly_polyMul]
    exact Polynomial.natDegree_mul_le_of_le (hword a) (hword b)
  exact natDegree_bitPoly_le_iff.mp hdeg 63 (by decide)

/-- Settles O32: the coefficients are those of the fold, and the laws are those of a commutative ring. -/
theorem polyMulIsThePolynomialProduct : Obligations.PolyMulIsThePolynomialProduct :=
  ⟨fun a b _ hk => getLsbD_polyMul a b hk, polyMul_comm, polyMul_zero_right,
    fun a => (polyMul_comm a 1).trans (polyMul_one_left a), polyMul_xor_right, getLsbD_polyMul_top _ _⟩

end Sys2Proof.Machine
end

section
/-!
SUPPORT. The reduction of rule R123 as a remainder: it passes the bits above 15 through, and a value below 0x100 is
its own remainder.
-/

namespace Sys2Proof.Machine

/-- A value is below `2^n` when and only when its bits from `n` on are clear. -/
theorem toNat_lt_twoPow_iff {w : Nat} {x : BitVec w} {n : Nat} :
    x.toNat < 2 ^ n ↔ ∀ k, n ≤ k → x.getLsbD k = false :=
  ⟨fun h _ hk => Nat.testBit_lt_two_pow (h.trans_le (Nat.pow_le_pow_right (by decide) hk)),
    Nat.lt_pow_two_of_testBit _⟩

theorem lt_0x100_iff {x : DWord} : x < 0x100#64 ↔ ∀ k, 8 ≤ k → x.getLsbD k = false :=
  toNat_lt_twoPow_iff (n := 8)

theorem lt_0x10000_iff {x : DWord} : x < 0x10000#64 ↔ ∀ k, 16 ≤ k → x.getLsbD k = false :=
  toNat_lt_twoPow_iff (n := 16)

theorem getLsbD_0xFFFF {k : Nat} : (0xFFFF#64).getLsbD k = decide (k < 16) := by
  rw [show 0xFFFF#64 = (BitVec.allOnes 16).setWidth 64 by decide, BitVec.getLsbD_setWidth, BitVec.getLsbD_allOnes]
  by_cases hk : k < 16
  · simp [hk, show k < 64 by omega]
  · simp [hk]

/-- An iteration that finds its bit clear changes nothing. -/
theorem reduceStep_of_clear {t : DWord} {i : Nat} (h : t.getLsbD (15 - i) = false) (u : DWord) :
    (reduceStep (t, u) i).1 = t := by
  simp [reduceStep, h]

/-- A value without the tested bit passes through an iteration. -/
theorem reduceStep_xor {v : DWord} {i : Nat} (h : v.getLsbD (15 - i) = false) (t u : DWord) :
    (reduceStep (t ^^^ v, u) i).1 = (reduceStep (t, u) i).1 ^^^ v := by
  simp only [reduceStep, BitVec.getLsbD_xor, h, Bool.xor_false]
  split
  · rw [BitVec.xor_assoc, BitVec.xor_comm v, BitVec.xor_assoc]
  · rfl

theorem reduceRun_xor {v : DWord} (h : ∀ k < 16, v.getLsbD k = false) (t : DWord) (m : Word) {n : Nat}
    (hn : n ≤ 8) : (reduceRun (t ^^^ v) m n).1 = (reduceRun t m n).1 ^^^ v := by
  induction n with
  | zero => rfl
  | succ n ih =>
    rw [reduceRun_succ_fst _ m hn, reduceRun_succ_fst t m hn, ih (by omega), reduceStep_xor (h _ (by omega))]

/-- Rule R123 (b): the bits above 15 pass through, and the reduction does not depend on them. -/
theorem fieldReduce_xor {v : DWord} (h : ∀ k < 16, v.getLsbD k = false) (t : DWord) (m : Word) :
    fieldReduce (t ^^^ v) m = fieldReduce t m ^^^ v := by
  simpa only [fieldReduce_eq_reduceRun] using reduceRun_xor h t m le_rfl

theorem reduceRun_of_lt {t : DWord} (h : t < 0x100#64) (m : Word) {n : Nat} (hn : n ≤ 8) :
    (reduceRun t m n).1 = t := by
  induction n with
  | zero => rfl
  | succ n ih =>
    rw [reduceRun_succ_fst t m hn, ih (by omega), reduceStep_of_clear (lt_0x100_iff.mp h _ (by omega))]

/-- Rule R123: what is below 0x100 is reduced already. -/
theorem fieldReduce_of_lt {t : DWord} (h : t < 0x100#64) (m : Word) : fieldReduce t m = t := by
  rw [fieldReduce_eq_reduceRun, reduceRun_of_lt h m le_rfl]

/-- Rule R123 (a): what is below 2^16 is reduced to a byte. -/
theorem fieldReduce_lt {m : Word} (hm : Modulus.Valid m) {t : DWord} (h : t < 0x10000#64) :
    fieldReduce t m < 0x100#64 := by
  refine lt_0x100_iff.mpr fun k hk => ?_
  rw [getLsbD_fieldReduce hm t hk]
  simpa using lt_0x10000_iff.mp h k

theorem fieldReduce_split {m : Word} (hm : Modulus.Valid m) (t : DWord) :
    fieldReduce t m = (t &&& ~~~ 0xFFFF#64) ||| fieldReduce (t &&& 0xFFFF#64) m := by
  have hlow : ∀ k < 16, (t &&& ~~~ 0xFFFF#64).getLsbD k = false := fun k hk => by
    rw [BitVec.getLsbD_and, BitVec.getLsbD_not, getLsbD_0xFFFF, decide_eq_true hk, Bool.not_true, Bool.and_false,
      Bool.and_false]
  have hsplit : (t &&& 0xFFFF#64) ^^^ (t &&& ~~~ 0xFFFF#64) = t := by
    refine BitVec.eq_of_getLsbD_eq fun k hk => ?_
    rw [BitVec.getLsbD_xor, BitVec.getLsbD_and, BitVec.getLsbD_and, BitVec.getLsbD_not, decide_eq_true hk]
    cases t.getLsbD k <;> simp
  calc fieldReduce t m = fieldReduce (t &&& 0xFFFF#64) m ^^^ (t &&& ~~~ 0xFFFF#64) := by
        rw [← fieldReduce_xor hlow, hsplit]
    _ = (t &&& ~~~ 0xFFFF#64) ||| fieldReduce (t &&& 0xFFFF#64) m := by
        refine BitVec.eq_of_getLsbD_eq fun k _ => ?_
        rw [BitVec.getLsbD_xor, BitVec.getLsbD_or]
        rcases Nat.lt_or_ge k 16 with hlt | hge
        · rw [hlow k hlt, Bool.xor_false, Bool.false_or]
        · rw [getLsbD_fieldReduce hm _ (by omega), BitVec.getLsbD_and, getLsbD_0xFFFF,
            decide_eq_false (Nat.not_lt.mpr hge)]
          simp

/-- Settles O33: one iteration clears its bit by adding a multiple of the modulus, so eight of them leave the
remainder. -/
theorem fieldReduceIsTheRemainder : Obligations.FieldReduceIsTheRemainder := fun m hm =>
  ⟨fun t _ hi => ⟨reduceStep_clears hm t hi, fun _ hk => reduceStep_above hm t hi hk⟩,
    fun t ht => ⟨fieldReduce_lt hm ht, fieldReduce_multiple t m⟩, fieldReduce_split hm,
    fun _ ht => fieldReduce_of_lt ht m⟩

end Sys2Proof.Machine
end

section
/-!
SUPPORT. `tf.polymul` and `tf.freduce` (rules R125, R126).
-/

namespace Sys2Proof.Machine

/-- A command that uses SEL forbids RIDX and RSVD (rules R81 to R84). -/
theorem reservedFieldError_of_sel {op : Byte} (hop : op ∈ legalOpcodes) (hridx : op ∉ [0x04#8, 0x05#8]) :
    ReservedFieldError op (fun c => ridxOf c ≠ 0 ∨ rsvdOf c ≠ 0) := by
  refine reservedFieldError_of_forbidden hop fun c hc hf => ?_
  subst hc
  rcases hf with hr | hrsvd
  · exact .inr (.inl ⟨hridx, hr⟩)
  · exact .inl hrsvd

/-- Settles O35: the completion commits the two words of the product, and its word is an opcode that needs no key. -/
theorem polymulCommand : Obligations.PolymulCommand :=
  ⟨rfl, rfl, fun _ => rfl, reservedFieldError_of_plain (by decide) (by decide) (by decide), droppedWhileBusy _,
    acceptedAlways_of_decode (i := .polymul) rfl rfl, fun a => ⟨polyMul_zero_right a, polyMul_zero_left a⟩,
    getLsbD_polyMul_top, by decide, by decide, by decide⟩

/-- Rule R9 (a) for the two moduli of TF128. -/
theorem moduli_valid : ∀ m ∈ [tables.mdsMod, tables.rsMod], Modulus.Valid m :=
  List.forall_mem_cons.mpr ⟨by decide, List.forall_mem_singleton.mpr (by decide)⟩

/-- A word below 0x100 is its own reduction. -/
theorem setWidth_fieldReduce_of_lt {a : Word} (h : a < 0x100#32) (m : Word) :
    (fieldReduce (a.setWidth 64) m).setWidth 32 = a := by
  have hlt : a.setWidth 64 < 0x100#64 := by bv_omega
  rw [fieldReduce_of_lt hlt, BitVec.setWidth_setWidth_of_le _ (by decide), BitVec.setWidth_eq]

/-- Rule R123 (b): bits 31:16 of OPA pass through. -/
theorem extractLsb'_fieldReduce {m : Word} (hm : Modulus.Valid m) (a : Word) :
    ((fieldReduce (a.setWidth 64) m).setWidth 32).extractLsb' 16 16 = a.extractLsb' 16 16 := by
  refine BitVec.eq_of_getLsbD_eq fun k hk => ?_
  rw [BitVec.getLsbD_extractLsb', BitVec.getLsbD_extractLsb', BitVec.getLsbD_setWidth,
    getLsbD_fieldReduce hm _ (by omega), BitVec.getLsbD_setWidth]
  simp [show 16 + k < 32 by omega, show 16 + k < 64 by omega]

/-- Settles O36: either selector's completion commits its reduction, which keeps a byte and the bits above 15. -/
theorem freduceCommands : Obligations.FreduceCommands :=
  ⟨rfl, rfl, rfl, rfl, fun _ => ⟨rfl, rfl⟩, reservedFieldError_of_sel (by decide) (by decide),
    acceptedAlways_of_decode (i := .freduceMds) rfl rfl, acceptedAlways_of_decode (i := .freduceRs) rfl rfl,
    fun m hm a => ⟨fun ha => setWidth_fieldReduce_of_lt ha m, extractLsb'_fieldReduce (moduli_valid m hm) a⟩,
    List.forall_mem_cons.mpr ⟨⟨rfl, rfl⟩,
      List.forall_mem_cons.mpr ⟨⟨rfl, rfl⟩, List.forall_mem_singleton.mpr ⟨rfl, rfl⟩⟩⟩⟩

end Sys2Proof.Machine
end

section
/-!
SUPPORT. `tf.gfmul` (rule R127). Its two moduli are coprime, so a common multiple of degree below 16 is 0, and two
equal remainders are those of a byte.
-/

namespace Sys2Proof.Machine

open Polynomial

theorem setWidth_byte_lt (x : Byte) : x.setWidth 64 < 0x100#64 := by bv_omega

theorem fieldMul_zero_left (b : Byte) (m : Word) : fieldMul 0 b m = 0 := by
  have hzero : polyMul ((0 : Byte).setWidth 32) (b.setWidth 32) = 0 := polyMul_zero_left _
  rw [fieldMul, hzero, fieldReduce_of_lt (by decide)]
  rfl

theorem fieldMul_one_left (b : Byte) (m : Word) : fieldMul 1 b m = b := by
  have hone : polyMul ((1 : Byte).setWidth 32) (b.setWidth 32) = b.setWidth 64 :=
    (polyMul_one_left _).trans (BitVec.setWidth_setWidth (by decide))
  rw [fieldMul, hone, fieldReduce_of_lt (setWidth_byte_lt b), BitVec.setWidth_setWidth_of_le _ (by decide),
    BitVec.setWidth_eq]

/-- A byte in RES leaves its bits 31:8 zero. -/
theorem extractLsb'_setWidth_byte (x : Byte) : (x.setWidth 32).extractLsb' 8 24 = 0#24 := by
  rw [BitVec.extractLsb'_setWidth_of_le (by decide)]
  refine BitVec.eq_of_getLsbD_eq fun k _ => ?_
  simp

theorem bitPoly_one : bitPoly (1 : DWord) = 1 := by
  ext k
  rw [coeff_bitPoly, coeff_one]
  simp

/-- Bit 8 is a valid modulus's top bit (rule R9 (a)). -/
theorem natDegree_validModulus {m : Word} (hm : Modulus.Valid m) : (bitPoly m).natDegree = 8 := by
  refine natDegree_eq_of_le_of_coeff_ne_zero
    (natDegree_bitPoly_le_iff.mpr fun _ hk => validModulus_getLsbD_above hm hk) ?_
  rw [coeff_bitPoly, validModulus_getLsbD_eight hm]
  decide

/-- Bezout: `0xB * 0x169 + 0xA * 0x14D = 1` over GF(2). -/
theorem moduli_coprime : IsCoprime (bitPoly tables.mdsMod) (bitPoly tables.rsMod) := by
  have hbezout : polyMul 0xB tables.mdsMod ^^^ polyMul 0xA tables.rsMod = 1 := by decide
  refine ⟨bitPoly (0xB : Word), bitPoly (0xA : Word), ?_⟩
  rw [← bitPoly_polyMul, ← bitPoly_polyMul, ← bitPoly_xor, hbezout, bitPoly_one]

/-- A common multiple of the two moduli of degree below 16 is 0. -/
theorem commonMultiple_eq_zero {d e : Word} (h : polyMul d tables.mdsMod = polyMul e tables.rsMod)
    (hdeg : ∀ k, 15 < k → (polyMul d tables.mdsMod).getLsbD k = false) : polyMul d tables.mdsMod = 0#64 := by
  have hmds : bitPoly tables.mdsMod ∣ bitPoly (polyMul d tables.mdsMod) := ⟨_, by rw [bitPoly_polyMul, mul_comm]⟩
  have hrs : bitPoly tables.rsMod ∣ bitPoly (polyMul d tables.mdsMod) := ⟨_, by rw [h, bitPoly_polyMul, mul_comm]⟩
  have hdvd := moduli_coprime.mul_dvd hmds hrs
  have hmdsDeg := natDegree_validModulus (moduli_valid tables.mdsMod (by decide))
  have hrsDeg := natDegree_validModulus (moduli_valid tables.rsMod (by decide))
  have hprod : (bitPoly tables.mdsMod * bitPoly tables.rsMod).natDegree = 16 := by
    rw [natDegree_mul (ne_zero_of_natDegree_gt (n := 0) (by omega)) (ne_zero_of_natDegree_gt (n := 0) (by omega)),
      hmdsDeg, hrsDeg]
  have hle := natDegree_bitPoly_le_iff.mpr hdeg
  exact bitPoly_injective ((eq_zero_of_dvd_of_natDegree_lt hdvd (by omega)).trans bitPoly_zero.symm)

/-- The field product is the remainder of the product by the modulus (rule R124). -/
theorem polyMul_eq_multiple_xor_fieldMul (a b : Byte) {m : Word} (hm : Modulus.Valid m) : ∃ d : Word,
    polyMul (a.setWidth 32) (b.setWidth 32) = polyMul d m ^^^ (fieldMul a b m).setWidth 64 :=
  setWidth_fieldMul a b hm ▸ fieldReduce_multiple _ m

/-- Rule R127: equal remainders by the two moduli leave a common multiple, 0, so the product is its remainder, a
byte. -/
theorem polyMul_lt_of_fieldMul_eq {a b : Byte} (h : fieldMul a b tables.mdsMod = fieldMul a b tables.rsMod) :
    polyMul (a.setWidth 32) (b.setWidth 32) < 0x100#64 := by
  obtain ⟨d, hd⟩ := polyMul_eq_multiple_xor_fieldMul a b (moduli_valid tables.mdsMod (by decide))
  obtain ⟨e, he⟩ := polyMul_eq_multiple_xor_fieldMul a b (moduli_valid tables.rsMod (by decide))
  have hbyte := setWidth_byte_lt (fieldMul a b tables.mdsMod)
  have hcommon : polyMul d tables.mdsMod = polyMul e tables.rsMod :=
    (BitVec.xor_left_inj _).mp (hd.symm.trans (h ▸ he))
  have hdeg : ∀ k, 15 < k → (polyMul d tables.mdsMod).getLsbD k = false := fun k hk => by
    rw [← xor_cancel_right (polyMul d tables.mdsMod) _, ← hd, BitVec.getLsbD_xor,
      getLsbD_polyMul_bytes a b (by omega), lt_0x100_iff.mp hbyte k (by omega), Bool.xor_false]
  rw [hd, commonMultiple_eq_zero hcommon hdeg, BitVec.zero_xor]
  exact hbyte

/-- Settles O37: the laws of the field product, and moduli that tell apart what is no byte. -/
theorem gfmulCommands : Obligations.GfmulCommands :=
  ⟨rfl, rfl, rfl, rfl, fun _ => ⟨rfl, rfl⟩, reservedFieldError_of_sel (by decide) (by decide),
    acceptedAlways_of_decode (i := .gfmulMds) rfl rfl, acceptedAlways_of_decode (i := .gfmulRs) rfl rfl,
    fun m _ a b => ⟨fieldMul_zero_left b m, (fieldMul_comm a 0 m).trans (fieldMul_zero_left a m),
      fieldMul_one_left b m, fieldMul_comm a b m, extractLsb'_setWidth_byte _⟩,
    fun _ _ hle heq => BitVec.not_lt.mpr hle (polyMul_lt_of_fieldMul_eq heq), by decide, by decide, by decide,
    by decide⟩

end Sys2Proof.Machine
end

section
/-!
SUPPORT. The Q networks (rules R140, R142): a network is six steps one after another, each of them injective.
-/

namespace Sys2Proof.Machine

theorem ror4_xor (a b : Nibble) : ror4 (a ^^^ b) = ror4 a ^^^ ror4 b := by
  decide +revert

/-- `8a mod 16` is the bit that the rotation of `a` brings to the top. -/
theorem ror4_xor_eight_mul (a : Nibble) : ror4 a ^^^ 8#4 * a = a >>> 1 := by
  decide +revert

/-- The top bit stands alone, and each bit below it is recovered from the one above. -/
theorem xor_ushiftRight_one_injective : Function.Injective fun a : Nibble => a ^^^ a >>> 1 := by
  unfold Function.Injective
  decide

/-- Rule R142: with the first component known, the second is a value of `a` alone. -/
theorem qStage_snd (a b : Nibble) : (qStage a b).2 = a ^^^ a >>> 1 ^^^ ror4 (a ^^^ b) := by
  rw [← ror4_xor_eight_mul, ror4_xor, qStage]
  grind

/-- Rule R142: `a` is recovered from the second component, then `b` from the first. -/
theorem qStage_injective : Function.Injective fun p : Nibble × Nibble => qStage p.1 p.2 := by
  rintro ⟨a, b⟩ ⟨a', b'⟩ h
  have hfst : a ^^^ b = a' ^^^ b' := congrArg Prod.fst h
  have hsnd : (qStage a b).2 = (qStage a' b').2 := congrArg Prod.snd h
  rw [qStage_snd, qStage_snd, hfst, BitVec.xor_left_inj] at hsnd
  obtain rfl := xor_ushiftRight_one_injective hsnd
  rw [(BitVec.xor_right_inj a).mp hfst]

/-- A table without repeated entries (rule R9 (c)) is injective. -/
theorem qLookup_injective {t : QTable} (ht : t.Valid) : Function.Injective (qLookup t) := fun _ _ h =>
  BitVec.eq_of_toNat_eq (ht.getElem_inj_iff.mp h)

/-- Rule R140, step 1: the high nibble, then the low one. -/
def splitByte (x : Byte) : Nibble × Nibble := (x.extractLsb' 4 4, x.extractLsb' 0 4)

/-- Rule R140, step 6: the second nibble is the high one. -/
def joinNibbles (p : Nibble × Nibble) : Byte := p.2.setWidth 8 <<< 4 ||| p.1.setWidth 8

theorem joinNibbles_eq_append (p : Nibble × Nibble) : joinNibbles p = p.2 ++ p.1 :=
  BitVec.setWidth_append_eq_shiftLeft_setWidth_or.symm.trans (BitVec.setWidth_eq _)

theorem splitByte_injective : Function.Injective splitByte :=
  Function.LeftInverse.injective (g := fun p => p.1 ++ p.2) fun _ => BitVec.extractLsb'_append_extractLsb'

theorem splitByte_joinNibbles (p : Nibble × Nibble) : splitByte (joinNibbles p) = p.swap := by
  rw [joinNibbles_eq_append, splitByte, BitVec.extractLsb'_append_eq_left, BitVec.extractLsb'_append_eq_right]
  rfl

theorem joinNibbles_injective : Function.Injective joinNibbles := fun p p' h =>
  Prod.swap_injective (by rw [← splitByte_joinNibbles p, h, splitByte_joinNibbles])

/-- Rule R140: steps 1 to 6, one after another. -/
theorem qNetwork_eq_comp (t : QTables) :
    qNetwork t = joinNibbles ∘ Prod.map (qLookup t.t2) (qLookup t.t3) ∘ qStage.uncurry ∘
      Prod.map (qLookup t.t0) (qLookup t.t1) ∘ qStage.uncurry ∘ splitByte := rfl

/-- Rule R142: each of the six steps is injective. -/
theorem qNetwork_injective {t : QTables} (ht : t.Valid) : Function.Injective (qNetwork t) := by
  obtain ⟨h0, h1, h2, h3⟩ := ht
  rw [qNetwork_eq_comp]
  exact joinNibbles_injective.comp <|
    ((qLookup_injective h2).prodMap (qLookup_injective h3)).comp <| qStage_injective.comp <|
    ((qLookup_injective h0).prodMap (qLookup_injective h1)).comp <| qStage_injective.comp splitByte_injective

theorem qNetwork_bijective {t : QTables} (ht : t.Valid) : Function.Bijective (qNetwork t) :=
  Finite.injective_iff_bijective.mp (qNetwork_injective ht)

/-- Settles O38: an injective map of a finite type to itself is a bijection, and the tables of TF128 are valid. -/
theorem qNetworksAreBijections : Obligations.QNetworksAreBijections :=
  ⟨Finite.injective_iff_bijective.mp qStage_injective, fun _ => qNetwork_bijective,
    qNetwork_bijective (t := tables.q0) (by decide), qNetwork_bijective (t := tables.q1) (by decide)⟩

/-- Settles O39: either variant's completion commits its byte, and its word is an opcode that needs no key. -/
theorem qpermCommands : Obligations.QpermCommands :=
  ⟨rfl, rfl, rfl, rfl, fun _ => ⟨rfl, rfl⟩, reservedFieldError_of_sel (by decide) (by decide),
    acceptedAlways_of_decode (i := .qpermQ0) rfl rfl, acceptedAlways_of_decode (i := .qpermQ1) rfl rfl,
    fun _ _ => extractLsb'_setWidth_byte _, by decide⟩

end Sys2Proof.Machine
end

section
/-!
SUPPORT. MDS and RS mixing are linear over XOR (rules R160, R162, R163, R166): every iteration of the reduction is,
for a modulus of any value, so the field product is linear in its second factor, and a row adds up such products.
-/

namespace Sys2Proof.Machine

/-- An iteration is linear in the running value: the tested bit of an XOR is the XOR of the tested bits. -/
theorem reduceStep_linear (t v u : DWord) (i : Nat) :
    (reduceStep (t ^^^ v, u) i).1 = (reduceStep (t, u) i).1 ^^^ (reduceStep (v, u) i).1 := by
  cases hv : v.getLsbD (15 - i) with
  | false => rw [reduceStep_xor hv, reduceStep_of_clear hv]
  | true =>
    simp only [reduceStep, BitVec.getLsbD_xor, hv, Bool.xor_true, if_true]
    cases t.getLsbD (15 - i) with
    | false => exact BitVec.xor_assoc t v u
    | true =>
      change t ^^^ v = t ^^^ u ^^^ (v ^^^ u)
      rw [BitVec.xor_comm v u, ← BitVec.xor_assoc, xor_cancel_right]

theorem reduceRun_linear (t v : DWord) (m : Word) {n : Nat} (hn : n ≤ 8) :
    (reduceRun (t ^^^ v) m n).1 = (reduceRun t m n).1 ^^^ (reduceRun v m n).1 := by
  induction n with
  | zero => rfl
  | succ n ih =>
    rw [reduceRun_succ_fst _ m hn, reduceRun_succ_fst t m hn, reduceRun_succ_fst v m hn, ih (by omega),
      reduceStep_linear]

theorem fieldReduce_linear (t v : DWord) (m : Word) :
    fieldReduce (t ^^^ v) m = fieldReduce t m ^^^ fieldReduce v m := by
  simpa only [fieldReduce_eq_reduceRun] using reduceRun_linear t v m le_rfl

theorem fieldMul_xor_right (a b c : Byte) (m : Word) :
    fieldMul a (b ^^^ c) m = fieldMul a b m ^^^ fieldMul a c m := by
  simp only [fieldMul, BitVec.setWidth_xor, polyMul_xor_right, fieldReduce_linear]

theorem fieldMul_zero_right (a : Byte) (m : Word) : fieldMul a 0 m = 0 :=
  (fieldMul_comm a 0 m).trans (fieldMul_zero_left a m)

theorem fieldMul_one_right (a : Byte) (m : Word) : fieldMul a 1 m = a :=
  (fieldMul_comm a 1 m).trans (fieldMul_one_left a m)

/-! ### The XOR of a list of bytes -/

theorem foldl_xor_zipWith_xor : ∀ {l l' : List Byte} (a b : Byte), l.length = l'.length →
    (List.zipWith (· ^^^ ·) l l').foldl (· ^^^ ·) (a ^^^ b) = l.foldl (· ^^^ ·) a ^^^ l'.foldl (· ^^^ ·) b
  | [], [], _, _, _ => rfl
  | x :: l, y :: l', a, b, h => by
    have hswap : a ^^^ b ^^^ (x ^^^ y) = a ^^^ x ^^^ (b ^^^ y) := by ac_rfl
    simp only [List.zipWith_cons_cons, List.foldl_cons, hswap]
    exact foldl_xor_zipWith_xor (a ^^^ x) (b ^^^ y) (Nat.succ.inj h)

theorem foldl_xor_replicate_zero (n : Nat) (a : Byte) : (List.replicate n (0 : Byte)).foldl (· ^^^ ·) a = a := by
  induction n with
  | zero => rfl
  | succ n ih =>
    rw [List.replicate_succ, List.foldl_cons, BitVec.ofNat_eq_ofNat, BitVec.xor_zero]
    exact ih

/-- The only byte that is not 0 is the XOR of them all. -/
theorem foldl_xor_set_replicate_zero {n k : Nat} (hk : k < n) (b : Byte) :
    ((List.replicate n (0 : Byte)).set k b).foldl (· ^^^ ·) 0 = b := by
  rw [List.set_eq_take_append_cons_drop, if_pos (by simpa using hk), List.take_replicate, List.drop_replicate,
    List.foldl_append, foldl_xor_replicate_zero, List.foldl_cons, foldl_xor_replicate_zero]
  exact BitVec.zero_xor

/-! ### One row, and the whole matrix -/

section
variable {n : Nat} (m : Word)

/-- A row's output byte is the XOR of its products. -/
theorem mixRow_eq_foldl (row x : Vector Byte n) :
    mixRow m row x = (Vector.zipWith (fieldMul · · m) row x).toList.foldl (· ^^^ ·) 0 := by
  rw [mixRow, Vector.toList_zipWith]

theorem mixRow_xor (row x y : Vector Byte n) :
    mixRow m row (Vector.zipWith (· ^^^ ·) x y) = mixRow m row x ^^^ mixRow m row y := by
  have hproducts : Vector.zipWith (fieldMul · · m) row (Vector.zipWith (· ^^^ ·) x y) =
      Vector.zipWith (· ^^^ ·) (Vector.zipWith (fieldMul · · m) row x) (Vector.zipWith (fieldMul · · m) row y) := by
    ext1 i hi
    simp only [Vector.getElem_zipWith, fieldMul_xor_right]
  rw [mixRow_eq_foldl, hproducts, Vector.toList_zipWith, mixRow_eq_foldl, mixRow_eq_foldl]
  exact foldl_xor_zipWith_xor 0 0 (by simp)

/-- Of a unit column a row gives back its own entry. -/
theorem mixRow_unit (row : Vector Byte n) (k : Fin n) :
    mixRow m row ((Vector.replicate n 0).set k 1) = row[k] := by
  have hproducts : Vector.zipWith (fieldMul · · m) row ((Vector.replicate n 0).set k 1) =
      (Vector.replicate n 0).set k row[k] := by
    ext1 i hi
    rw [Vector.getElem_zipWith, Vector.getElem_set, Vector.getElem_set, Vector.getElem_replicate]
    split
    · next hki => subst hki; exact fieldMul_one_right _ m
    · exact fieldMul_zero_right _ m
  rw [mixRow_eq_foldl, hproducts, Vector.toList_set, Vector.toList_replicate]
  exact foldl_xor_set_replicate_zero k.isLt _

variable (matrix : Vector (Vector Byte n) 4)

theorem mix_xor (x y : Vector Byte n) :
    mix m matrix (Vector.zipWith (· ^^^ ·) x y) = mix m matrix x ^^^ mix m matrix y := by
  simp only [mix, mixRow_xor, word_xor]

/-- A linear map takes 0, which is `0 ^ 0`, to a word XORed with itself. -/
theorem mix_zero : mix m matrix (Vector.replicate n 0) = 0 := by
  have hzero : Vector.zipWith (· ^^^ ·) (Vector.replicate n (0 : Byte)) (Vector.replicate n 0) =
      Vector.replicate n 0 := by
    ext1 i hi
    simp
  rw [← hzero, mix_xor]
  exact BitVec.xor_self

theorem mix_unit (k : Fin n) : mix m matrix ((Vector.replicate n 0).set k 1) =
    word matrix[3][k] matrix[2][k] matrix[1][k] matrix[0][k] := by
  simp only [mix, mixRow_unit]

end

/-- Settles O40: the laws hold of every matrix and modulus, and each example is the first column of its matrix. -/
theorem mixingIsLinear : Obligations.MixingIsLinear :=
  ⟨fun T => mix_xor T.mdsMod T.mdsMatrix, fun T => mix_zero T.mdsMod T.mdsMatrix,
    fun T => mix_unit T.mdsMod T.mdsMatrix, mix_unit tables.mdsMod tables.mdsMatrix 0,
    fun T => mix_xor T.rsMod T.rsMatrix, fun T => mix_zero T.rsMod T.rsMatrix,
    fun T => mix_unit T.rsMod T.rsMatrix, mix_unit tables.rsMod tables.rsMatrix 0⟩

end Sys2Proof.Machine
end

section
/-!
SUPPORT. `tf.mdsmix` and `tf.rsmix` (rules R167, R168).
-/

namespace Sys2Proof.Machine

/-- Settles O41: the completion commits the mixing of the bytes of OPA, and its word is an opcode that needs no
key. -/
theorem mdsmixCommand : Obligations.MdsmixCommand :=
  ⟨rfl, rfl, fun _ => rfl, reservedFieldError_of_plain (by decide) (by decide) (by decide),
    acceptedAlways_of_decode (i := .mdsmix) rfl rfl, fun p hp => by fin_cases hp <;> rfl⟩

/-- Rule R168: KEY0 and KEY1 give the first half of the key, KEY2 and KEY3 the second. -/
theorem rsColumn_key (key : Quad) (n : Fin 8) : (rsColumn key.w0 key.w1)[n] = quadByte key ⟨n, by omega⟩ ∧
    (rsColumn key.w2 key.w3)[n] = quadByte key ⟨8 + n, by omega⟩ := by
  fin_cases n <;> exact ⟨rfl, rfl⟩

/-- Rule R192: `S0` is the RS mixing of KEY0 and KEY1. -/
theorem sboxKey0_eq_rsMix (T : Tables) (key : Quad) : sboxKey0 T key = rsMix T (rsColumn key.w0 key.w1) := rfl

/-- Settles O42: the completion commits the mixing of the bytes of OPA and OPB, and its word is an opcode that needs
no key; `S0` of the example key is the last of the listed values. -/
theorem rsmixCommand : Obligations.RsmixCommand := by
  have hexample : rsMix tables (rsColumn 0x00010203#32 0x04050607#32) = 0x2F062AD7#32 := by decide
  exact ⟨rfl, rfl, fun _ => rfl, rsColumn_key, reservedFieldError_of_plain (by decide) (by decide) (by decide),
    acceptedAlways_of_decode (i := .rsmix) rfl rfl, fun p hp => by fin_cases hp <;> rfl,
    (sboxKey0_eq_rsMix _ _).trans hexample⟩

end Sys2Proof.Machine
end

section
/-!
SUPPORT. The G function lane by lane (rules R180, R181), and `tf.gfunc` (rule R184).
-/

namespace Sys2Proof.Machine

/-- Settles O43: each lane applies the variants of its row of the pattern, and the column that G mixes lists the lanes
from lane 1 on, lane 0 last. -/
theorem gFunctionInWords : Obligations.GFunctionInWords := fun _ _ _ _ => ⟨rfl, rfl, rfl, rfl, rfl⟩

/-- Rule R184: the key words enter lane `j` only through their bytes `j`. -/
theorem gByte_congr_key (T : Tables) (x : Word) {s0 s1 s0' s1' : Word} {j : Fin 4} (h0 : byte s0 j = byte s0' j)
    (h1 : byte s1 j = byte s1' j) : gByte T x s0 s1 j = gByte T x s0' s1' j := by
  simp only [gByte, h0, h1]

/-- Rule R180: G is the MDS mixing of its four lanes, once they are known. -/
theorem gFunction_of_lanes {T : Tables} {x s0 s1 : Word} {y0 y1 y2 y3 : Byte}
    (h : (List.finRange 4).map (gByte T x s0 s1) = [y0, y1, y2, y3]) :
    gFunction T x s0 s1 = mdsMix T #v[y1, y2, y3, y0] := by
  cases h
  rfl

/-- Settles O44: the completion commits G of OPA, OPB and OPC, and its word is an opcode that needs no key; the
listed values are the lanes of each operand, and the MDS mixing of those lanes. -/
theorem gfuncCommand : Obligations.GfuncCommand := by
  have hzero : (List.finRange 4).map (gByte tables 0 0 0) = [0xB3, 0x1F, 0x5B, 0xA5] := by decide
  have hone : (List.finRange 4).map (gByte tables 1 0 0) = [0x98, 0x1F, 0x5B, 0xA5] := by decide
  have hones : (List.finRange 4).map (gByte tables 0xFFFFFFFF 0 0) = [0x2B, 0x0F, 0xAE, 0x2E] := by decide
  have hexample : (List.finRange 4).map (gByte tables 0x12345678 0x9ABCDEF0 0x0F1E2D3C) =
      [0x44, 0xF6, 0x6F, 0xCB] := by decide
  exact ⟨rfl, rfl, fun _ => rfl, reservedFieldError_of_plain (by decide) (by decide) (by decide),
    acceptedAlways_of_decode (i := .gfunc) rfl rfl, fun x _ _ _ _ _ => gByte_congr_key tables x,
    hzero, (gFunction_of_lanes hzero).trans (by decide), hone, (gFunction_of_lanes hone).trans (by decide),
    (gFunction_of_lanes hones).trans (by decide), hexample, (gFunction_of_lanes hexample).trans (by decide)⟩

end Sys2Proof.Machine
end

section
/-!
SUPPORT. The key schedule: the inputs of G (rules R193, R195), the round subkeys (rule R194), and `tf.keysched` (rule
R196).
-/

namespace Sys2Proof.Machine

/-! ### The inputs of G -/

/-- Rule R193: a key word packed from the key's bytes is the KEY register that holds them. -/
theorem keyWord_eq_get (key : Quad) (j : Fin 4) : keyWord key j = key.get j :=
  calc keyWord key j = (packQuad (Vector.ofFn (quadByte key))).get j := by
        simp only [packQuad_get, Vector.getElem_ofFn, keyWord]
    _ = key.get j := by rw [packQuad_quadByte]

/-- Rule R195: a multiple of ρ below `256·ρ` repeats one byte, since no carry crosses a byte boundary. -/
theorem byte_ofNat_mul_rho {n : Nat} (hn : n < 256) (j : Fin 4) :
    byte (BitVec.ofNat 32 n * rho) j = BitVec.ofNat 8 n := by
  have hmul : (BitVec.ofNat 32 n * rho).toNat = n * 0x01010101 := by
    rw [rho, BitVec.toNat_mul, BitVec.toNat_ofNat, BitVec.toNat_ofNat]
    omega
  have hbyte1 : n * 0x01010101 / 2 ^ 8 = n * 0x010101 := by omega
  have hbyte2 : n * 0x01010101 / 2 ^ 16 = n * 0x0101 := by omega
  have hbyte3 : n * 0x01010101 / 2 ^ 24 = n := by omega
  refine BitVec.eq_of_toNat_eq ?_
  rw [byte, BitVec.extractLsb'_toNat, hmul, Nat.shiftRight_eq_div_pow, BitVec.toNat_ofNat]
  fin_cases j <;> simp only [hbyte1, hbyte2, hbyte3] <;> omega

/-- Settles O47: a key word's bytes are those of its register, and the two inputs of step `i` are `2i·ρ` and
`(2i+1)·ρ`. -/
theorem inputsOfTheKeySchedule : Obligations.InputsOfTheKeySchedule := by
  refine ⟨fun key => ⟨keyWord_eq_get key 2, keyWord_eq_get key 0, keyWord_eq_get key 3, keyWord_eq_get key 1⟩,
    fun i j => ?_⟩
  have heven : 2 * BitVec.ofNat 32 i * rho = BitVec.ofNat 32 (2 * i) * rho := by rw [BitVec.ofNat_mul]; rfl
  have hodd : 2 * BitVec.ofNat 32 i * rho + rho = BitVec.ofNat 32 (2 * i + 1) * rho := by
    rw [heven, BitVec.ofNat_add, BitVec.add_mul, BitVec.one_mul]
  rw [hodd, heven]
  exact ⟨byte_ofNat_mul_rho (by omega) j, byte_ofNat_mul_rho (by omega) j⟩

/-! ### The round subkeys -/

section
variable (T : Tables) (key : Quad)

theorem subkeyA_eq (i : Nat) : subkeyA T key i = gFunction T (2 * BitVec.ofNat 32 i * rho) key.w2 key.w0 := by
  rw [subkeyA, keyWord_eq_get, keyWord_eq_get]
  rfl

theorem subkeyB_eq (i : Nat) :
    subkeyB T key i = rol32 (gFunction T (2 * BitVec.ofNat 32 i * rho + rho) key.w3 key.w1) 8 := by
  rw [subkeyB, keyWord_eq_get, keyWord_eq_get]
  rfl

theorem subkey_keySchedule (n : Fin 40) : (keySchedule T key).subkey n = roundSubkey T key n :=
  Vector.getElem_ofFn _

theorem roundSubkey_two_mul (i : Nat) : roundSubkey T key (2 * i) = subkeyA T key i + subkeyB T key i := by
  rw [roundSubkey, if_pos (Nat.mul_mod_right 2 i), Nat.mul_div_cancel_left i Nat.two_pos]

theorem roundSubkey_two_mul_add_one (i : Nat) :
    roundSubkey T key (2 * i + 1) = rol32 (subkeyA T key i + 2 * subkeyB T key i) 9 := by
  have hdiv : (2 * i + 1) / 2 = i := by omega
  rw [roundSubkey, if_neg (by omega), hdiv]

end

/-- Settles O46: step `i` fills the places `2i` and `2i+1` of the schedule, with the key words of rule R193. -/
theorem roundSubkeysOfTheSchedule : Obligations.RoundSubkeysOfTheSchedule := by
  intro T key i a b
  have ha : subkeyA T key i = a := subkeyA_eq T key i
  have hb : subkeyB T key i = b := subkeyB_eq T key i
  rw [subkey_keySchedule, subkey_keySchedule, roundSubkey_two_mul, roundSubkey_two_mul_add_one, ha, hb]
  exact ⟨rfl, rfl⟩

/-! ### `tf.keysched` -/

/-- Rule R194: step 0 gives the first pair of subkeys from the two values of G. -/
theorem subkeys_of_step_zero {T : Tables} {key : Quad} {a b : Word} (ha : gFunction T 0 key.w2 key.w0 = a)
    (hb : gFunction T rho key.w3 key.w1 = b) :
    (keySchedule T key).subkey 0 = a + rol32 b 8 ∧
      (keySchedule T key).subkey 1 = rol32 (a + 2 * rol32 b 8) 9 := by
  subst ha hb
  exact roundSubkeysOfTheSchedule T key 0

theorem rsMix_rsColumn_zero (T : Tables) : rsMix T (rsColumn 0 0) = 0 := mix_zero T.rsMod T.rsMatrix

/-- Rule R192: `S1` is the RS mixing of KEY2 and KEY3. -/
theorem sboxKey1_eq_rsMix (T : Tables) (key : Quad) : sboxKey1 T key = rsMix T (rsColumn key.w2 key.w3) := rfl

/-- Settles O48: the completion commits the schedule with KEYVALID, and its word is an opcode that needs no key; the
corner cases are the RS mixing of the zero column, and the listed values are RS mixings and sums of values of G. -/
theorem keyschedCommand : Obligations.KeyschedCommand := by
  obtain ⟨-, -, -, -, -, -, -, hzeroA, -⟩ := gfuncCommand
  obtain ⟨-, -, -, -, -, -, -, hexampleS0⟩ := rsmixCommand
  have hzeroB : (List.finRange 4).map (gByte tables rho 0 0) = [0x98, 0xCA, 0xE0, 0xFC] := by decide
  have hexampleA : (List.finRange 4).map (gByte tables 0 exampleKey.w2 exampleKey.w0) =
      [0xF7, 0xBC, 0xF5, 0x22] := by decide
  have hexampleB : (List.finRange 4).map (gByte tables rho exampleKey.w3 exampleKey.w1) =
      [0x02, 0xCC, 0x7D, 0x5C] := by decide
  obtain ⟨hzero, -⟩ := subkeys_of_step_zero (T := tables) (key := .zero) hzeroA
    ((gFunction_of_lanes hzeroB).trans (by decide : _ = 0xCAFFC11F#32))
  obtain ⟨hexample0, hexample1⟩ := subkeys_of_step_zero (T := tables) (key := exampleKey)
    ((gFunction_of_lanes hexampleA).trans (by decide : _ = 0x9396B75A#32))
    ((gFunction_of_lanes hexampleB).trans (by decide : _ = 0x374A2A83#32))
  exact ⟨rfl, rfl, fun _ => rfl, fun _ => ⟨rfl, rfl⟩,
    reservedFieldError_of_plain (by decide) (by decide) (by decide), droppedWhileBusy _,
    acceptedAlways_of_decode (i := .keysched) rfl rfl, fun _ _ => rsMix_rsColumn_zero tables,
    rsMix_rsColumn_zero tables, hzero.trans (by decide), hexampleS0, (sboxKey1_eq_rsMix _ _).trans (by decide),
    hexample0.trans (by decide), hexample1.trans (by decide)⟩

end Sys2Proof.Machine
end

section
/-!
SUPPORT. The encrypt and decrypt rounds undo each other (rules R212 to R214).
-/

namespace Sys2Proof.Machine

section
variable (T : Tables) (k : Schedule) (r : Fin 16) (b : Quad)

/-- Rule R214: both rounds take F of the same two words, which the first moves and does not change. -/
theorem decRound_encRound : decRound T k r (encRound T k r b) = b := by
  simp only [decRound, encRound, rol32_ror32, ror32_rol32, xor_cancel_right]

theorem encRound_decRound : encRound T k r (decRound T k r b) = b := by
  simp only [decRound, encRound, rol32_ror32, ror32_rol32, xor_cancel_right]

end

/-- Settles O50: the two laws, for every choice of the tables, schedule, round and state. -/
theorem roundsInvertEachOther : Obligations.RoundsInvertEachOther := fun T k r b =>
  ⟨decRound_encRound T k r b, encRound_decRound T k r b⟩

end Sys2Proof.Machine
end

section
/-!
SUPPORT. `tf.rndenc` and `tf.rnddec` (rules R215, R216).
-/

namespace Sys2Proof.Machine

/-! ### Presentation -/

/-- The word of a command that needs the key passes its checks with KEYVALID 1, and with KEYVALID 0 fails the key
check (rule R86). -/
theorem acceptedWithKey_of_decode {c : Word} {i : Instr} (hd : decode c = .ok i) (hkey : i.needsKey = true) :
    AcceptedWithKey c := by
  refine fun s hidle => ⟨fun hkv => ?_, fun hkv => ?_⟩
  · rw [memWrite_cmd hidle, present_of_check_none]
    simp [check_of_decode_ok hd, hkv]
  · rw [memWrite_cmd hidle, present_of_check_some]
    simp [check_of_decode_ok hd, hkey, hkv]

/-- What CMD does with the encoded word of a command that needs the key, idle and busy. -/
theorem encode_presentedWithKey {i : Instr} (hi : i.wellFormed = true) (hkey : i.needsKey = true) :
    decode (encode i) = .ok i ∧ AcceptedWithKey (encode i) ∧ DroppedWhileBusy (encode i) :=
  ⟨decode_encode hi, acceptedWithKey_of_decode (decode_encode hi) hkey, droppedWhileBusy _⟩

/-- A command that uses RIDX forbids SEL and RSVD (rules R81 to R84). -/
theorem reservedFieldError_of_round {op : Byte} (hop : op ∈ legalOpcodes)
    (hsel : op ∉ [0x06#8, 0x11#8, 0x12#8, 0x13#8]) :
    ReservedFieldError op (fun c => selOf c = true ∨ rsvdOf c ≠ 0) := by
  refine reservedFieldError_of_forbidden hop fun c hc hf => ?_
  subst hc
  rcases hf with hs | hrsvd
  · exact .inr (.inr ⟨hsel, hs⟩)
  · exact .inl hrsvd

/-! ### Completion -/

theorem roundIndex_val (r : Fin 16) : roundIndex r = r := Fin.ofNat_val_eq_self r

theorem exec_rndenc (s : State) (r : Fin 16) :
    exec (.rndenc r) s = .next (completeBlock (encRound tables s.sched r s.din) s) := by
  change execRndenc r s = _
  rw [execRndenc, roundIndex_val]

theorem exec_rnddec (s : State) (r : Fin 16) :
    exec (.rnddec r) s = .next (completeBlock (decRound tables s.sched r s.din) s) := by
  change execRnddec r s = _
  rw [execRnddec, roundIndex_val]

/-- Rule R216: after `tf.rndenc r` and the copy of DOUT to DIN, `tf.rnddec r'` applies `D_r'` to `E_r` of DIN. -/
theorem exec_rndenc_rnddec (s : State) (r r' : Fin 16) : ∃ t u, exec (.rndenc r) s = .next t ∧
    exec (.rnddec r') { t with din := t.dout } = .next u ∧
      u.dout = decRound tables s.sched r' (encRound tables s.sched r s.din) :=
  ⟨_, _, exec_rndenc s r, exec_rnddec _ r', rfl⟩

/-- Rule R215: with DIN 0 the two values of G are one, that of the word 0. -/
theorem encRound_zero (T : Tables) (k : Schedule) (r : Fin 16) :
    let t := gFunction T 0 k.skey0 k.skey1
    encRound T k r .zero = ⟨ror32 (t + t + roundKey0 k r) 1, 2 * t + t + roundKey1 k r, 0, 0⟩ := by
  have hrol8 : rol32 0#32 8 = 0#32 := rfl
  have hrol1 : rol32 0#32 1 = 0#32 := rfl
  simp only [encRound, roundF, Quad.zero, hrol8, hrol1, BitVec.ofNat_eq_ofNat, BitVec.zero_xor]

/-- Rule R211: round 0 takes its two subkeys from step 4 of the key schedule. -/
theorem roundKeys_of_round_zero {T : Tables} {key : Quad} {a b : Word}
    (ha : gFunction T 0x08080808 key.w2 key.w0 = a) (hb : gFunction T 0x09090909 key.w3 key.w1 = b) :
    roundKey0 (keySchedule T key) 0 = a + rol32 b 8 ∧
      roundKey1 (keySchedule T key) 0 = rol32 (a + 2 * rol32 b 8) 9 := by
  subst ha hb
  exact roundSubkeysOfTheSchedule T key 4

/-- The zero-key example of rules R215 and R216. -/
theorem encRound_zeroKey :
    encRound tables (keySchedule tables .zero) 0 .zero = ⟨0x3CCD0A00, 0x3A5C8E81, 0, 0⟩ := by
  obtain ⟨-, -, -, -, -, -, -, hg, -⟩ := gfuncCommand
  obtain ⟨-, -, -, -, -, -, -, hs0, hs1, -⟩ := keyschedCommand
  have hlanesA : (List.finRange 4).map (gByte tables 0x08080808 0 0) = [0x9C, 0x7B, 0x2F, 0x00] := by decide
  have hlanesB : (List.finRange 4).map (gByte tables 0x09090909 0 0) = [0xA6, 0x24, 0xBC, 0xF7] := by decide
  obtain ⟨hk0, hk1⟩ := roundKeys_of_round_zero (T := tables) (key := .zero)
    ((gFunction_of_lanes hlanesA).trans (by decide : _ = 0x963D7EA9#32))
    ((gFunction_of_lanes hlanesB).trans (by decide : _ = 0x5333ADF6#32))
  have hs0 : (keySchedule tables .zero).skey0 = 0 := hs0 0 0
  rw [encRound_zero, hs0, hs1, hg, hk0, hk1]
  decide

/-- Rule R216: a decrypt round of another index undoes an encrypt round only where their first subkeys agree. -/
theorem roundKey0_eq_of_decRound_encRound {T : Tables} {k : Schedule} {r r' : Fin 16} {b : Quad}
    (h : decRound T k r' (encRound T k r b) = b) : roundKey0 k r = roundKey0 k r' := by
  have hw2 : rol32 (ror32 (b.w2 ^^^ (roundF T k b.w0 b.w1 r).1) 1) 1 ^^^ (roundF T k b.w0 b.w1 r').1 = b.w2 :=
    congrArg Quad.w2 h
  have hf : (roundF T k b.w0 b.w1 r).1 = (roundF T k b.w0 b.w1 r').1 := by
    rw [rol32_ror32] at hw2
    exact (BitVec.xor_right_inj _).mp ((xor_cancel_right _ _).trans hw2.symm)
  exact (BitVec.add_right_inj _).mp hf

/-- A schedule that gives rounds 0 and 1 different first subkeys, `Kkey[8]` and `Kkey[10]`. -/
def unequalRoundKeys : Schedule := ⟨0, 0, (Vector.replicate 40 0).set 8 1⟩

theorem roundKey0_unequalRoundKeys : roundKey0 unequalRoundKeys 0 ≠ roundKey0 unequalRoundKeys 1 := by decide

/-- The example of rule R216 with the key `00 01 .. 0F`. -/
theorem decRound_exampleKey : decRound tables (keySchedule tables exampleKey) 0 ⟨1, 2, 3, 4⟩ =
    ⟨0x00000003, 0x00000004, 0x135969FF, 0xE112B5A4⟩ := by
  obtain ⟨-, -, -, -, -, -, -, -, -, -, hs0, hs1, -⟩ := keyschedCommand
  have hlanesA : (List.finRange 4).map (gByte tables 0x08080808 exampleKey.w2 exampleKey.w0) =
      [0x04, 0x3F, 0x93, 0x0E] := by decide
  have hlanesB : (List.finRange 4).map (gByte tables 0x09090909 exampleKey.w3 exampleKey.w1) =
      [0xEC, 0x67, 0x35, 0x7E] := by decide
  have hlanes0 : (List.finRange 4).map (gByte tables 3 0x2F062AD7#32 0xF204791A#32) =
      [0x97, 0x69, 0x7C, 0xD8] := by decide
  have hlanes1 : (List.finRange 4).map (gByte tables (rol32 4 8) 0x2F062AD7#32 0xF204791A#32) =
      [0xC4, 0x77, 0x7C, 0xD8] := by decide
  obtain ⟨hk0, hk1⟩ := roundKeys_of_round_zero (T := tables) (key := exampleKey)
    ((gFunction_of_lanes hlanesA).trans (by decide : _ = 0x5D25C027#32))
    ((gFunction_of_lanes hlanesB).trans (by decide : _ = 0x1FAA5AA9#32))
  have ht0 := (gFunction_of_lanes hlanes0).trans (by decide : _ = 0x0BB16186#32)
  have ht1 := (gFunction_of_lanes hlanes1).trans (by decide : _ = 0x00279F31#32)
  simp only [decRound, roundF, hs0, hs1, ht0, ht1, hk0, hk1]
  decide

/-! ### The two commands -/

/-- Settles O51: the completion commits the encrypt round, and its word is an opcode that needs the key. -/
theorem rndencCommand : Obligations.RndencCommand := by
  refine ⟨fun r hr => ?_, exec_rndenc, reservedFieldError_of_round (by decide) (by decide), fun s r hdin => ?_,
    encRound_zeroKey⟩
  · obtain ⟨-, hwords⟩ := everyMnemonicHasItsWord
    obtain ⟨hword, -⟩ := hwords r hr
    exact ⟨hword, encode_presentedWithKey (decide_eq_true hr) rfl⟩
  · refine ⟨_, exec_rndenc s r, ?_⟩
    rw [hdin]
    exact encRound_zero tables s.sched r

/-- Settles O52: the completion commits the decrypt round, and its word is an opcode that needs the key; it undoes
`tf.rndenc` of the same round, and not of one with another subkey. -/
theorem rnddecCommand : Obligations.RnddecCommand := by
  refine ⟨fun r hr => ?_, exec_rnddec, reservedFieldError_of_round (by decide) (by decide), fun s r => ?_, ?_, ?_,
    decRound_exampleKey⟩
  · obtain ⟨-, hwords⟩ := everyMnemonicHasItsWord
    obtain ⟨-, -, hword, -⟩ := hwords r hr
    exact ⟨hword, encode_presentedWithKey (decide_eq_true hr) rfl⟩
  · obtain ⟨t, u, ht, hu, hdout⟩ := exec_rndenc_rnddec s r r
    exact ⟨t, u, ht, hu, hdout.trans (decRound_encRound ..)⟩
  · obtain ⟨t, u, ht, hu, hdout⟩ := exec_rndenc_rnddec { State.reset with sched := unequalRoundKeys } 0 1
    refine ⟨_, t, u, 0, 1, ht, hu, fun hsame => roundKey0_unequalRoundKeys ?_⟩
    exact roundKey0_eq_of_decRound_encRound (hdout.symm.trans hsame)
  · rw [← encRound_zeroKey, decRound_encRound]

end Sys2Proof.Machine
end

section
/-!
SUPPORT. Encryption and decryption undo each other (rules R230, R232, R235).
-/

namespace Sys2Proof.Machine

/-- Steps taken one after another are undone by their inverses in the mirror order. -/
theorem foldl_reverse_cancel {ι α : Type} {f g : ι → α → α} (h : ∀ i a, g i (f i a) = a) (is : List ι)
    (a : α) : is.reverse.foldl (fun a i => g i a) (is.foldl (fun a i => f i a) a) = a := by
  induction is generalizing a with
  | nil => rfl
  | cons i is ih => simp only [List.reverse_cons, List.foldl_append, List.foldl_cons, List.foldl_nil, ih, h]

section
variable (T : Tables) (k : Schedule) (g : WhitenGroup) (b : Quad)

/-- Rule R231: whitening twice with one group gives the block back. -/
theorem whiten_whiten : whiten k g (whiten k g b) = b := by
  simp only [whiten, xor_cancel_right]

/-- Rule R231: whitening the zero block gives the key words of the group. -/
theorem whiten_zero : whiten k g .zero = whitenKeys k g := by
  simp only [whiten, Quad.zero, BitVec.ofNat_eq_ofNat, BitVec.zero_xor]

theorem decryptBlock_encryptBlock : decryptBlock T k (encryptBlock T k b) = b := by
  rw [decryptBlock, encryptBlock, whiten_whiten, foldl_reverse_cancel (decRound_encRound T k), whiten_whiten]

theorem encryptBlock_decryptBlock : encryptBlock T k (decryptBlock T k b) = b := by
  have hrounds := foldl_reverse_cancel (encRound_decRound T k) (List.finRange 16).reverse
  rw [List.reverse_reverse] at hrounds
  rw [encryptBlock, decryptBlock, whiten_whiten, hrounds, whiten_whiten]

end

/-- Settles O56: the whitenings are involutions, and the rounds between them are undone in the mirror order. -/
theorem inverseLaw : Obligations.InverseLaw := fun T k b =>
  ⟨decryptBlock_encryptBlock T k b, encryptBlock_decryptBlock T k b⟩

end Sys2Proof.Machine
end

section
/-!
SUPPORT. The single-step commands one after another, DOUT copied to DIN between them (rules R238, R294).
-/

namespace Sys2Proof.Machine

/-- The state after a command has completed with the block `b` and the host has copied DOUT to DIN. -/
def fedBack (b : Quad) (s : State) : State := { completeBlock b s with din := b }

/-- Only the last block that was fed back is seen. -/
theorem fedBack_fedBack (b b' : Quad) (s : State) : fedBack b' (fedBack b s) = fedBack b' s := rfl

theorem chain_cons {i : Instr} {s : State} {b : Quad} (h : exec i s = .next (completeBlock b s)) (is : List Instr) :
    chain (i :: is) s = chain is (fedBack b s) := by
  simp only [chain, h]
  rfl

section
variable {instr : Fin 16 → Instr} {round : Schedule → Fin 16 → Quad → Quad}
  (h : ∀ s r, exec (instr r) s = .next (completeBlock (round s.sched r s.din) s))
include h

/-- A run of round commands from a block that was fed back feeds back the rounds applied to it in turn. -/
theorem chain_rounds (is : List Instr) (s : State) (rs : List (Fin 16)) (b : Quad) :
    chain (rs.map instr ++ is) (fedBack b s) = chain is (fedBack (rs.foldl (fun b r => round s.sched r b) b) s) := by
  induction rs generalizing b with
  | nil => rfl
  | cons r rs ih =>
    calc chain (instr r :: (rs.map instr ++ is)) (fedBack b s)
        = chain (rs.map instr ++ is) (fedBack (round s.sched r b) (fedBack b s)) := chain_cons (h _ r) _
      _ = chain (rs.map instr ++ is) (fedBack (round s.sched r b) s) := by rw [fedBack_fedBack]
      _ = chain is (fedBack (rs.foldl (fun b r => round s.sched r b) (round s.sched r b)) s) := ih _

/-- Rule R238: a first whitening, rounds, and a second whitening, as whole states. -/
theorem chain_whitened {first last : Instr} {g g' : WhitenGroup}
    (hfirst : ∀ s, exec first s = .next (completeBlock (whiten s.sched g s.din) s))
    (hlast : ∀ s, exec last s = .next (completeBlock (whiten s.sched g' s.din) s)) (rs : List (Fin 16)) (s : State) :
    chain ([first] ++ rs.map instr ++ [last]) s =
      .next (fedBack (whiten s.sched g' (rs.foldl (fun b r => round s.sched r b) (whiten s.sched g s.din))) s) := by
  calc chain (first :: (rs.map instr ++ [last])) s
      = chain (rs.map instr ++ [last]) (fedBack (whiten s.sched g s.din) s) := chain_cons (hfirst s) _
    _ = chain [last] (fedBack (rs.foldl (fun b r => round s.sched r b) (whiten s.sched g s.din)) s) :=
        chain_rounds h _ s rs _
    _ = _ := chain_cons (hlast _) []

end

/-- Settles O57: in either direction the chain is the whitenings and rounds of the block command, in its order. -/
theorem singleStepsComposeToTheBlock : Obligations.SingleStepsComposeToTheBlock := by
  intro s
  have henc := chain_whitened (instr := fun r => .rndenc r) exec_rndenc (first := .whitenIn) (last := .whitenOut)
    (fun _ => rfl) (fun _ => rfl) (List.finRange 16) s
  have hdec := chain_whitened (instr := fun r => .rnddec r) exec_rnddec (first := .whitenOut) (last := .whitenIn)
    (fun _ => rfl) (fun _ => rfl) (List.finRange 16).reverse s
  exact ⟨⟨_, _, henc, rfl, rfl⟩, ⟨_, _, hdec, rfl, rfl⟩⟩

end Sys2Proof.Machine
end

section
/-!
SUPPORT. `tf.whiten.in`, `tf.whiten.out`, `tf.encrypt` and `tf.decrypt` (rules R231, R233, R234).
-/

namespace Sys2Proof.Machine

/-- Settles O53: either group's completion commits its XOR, and its word is an opcode that needs the key. -/
theorem whitenCommands : Obligations.WhitenCommands :=
  ⟨rfl, rfl, rfl, rfl, fun _ => ⟨rfl, rfl⟩, reservedFieldError_of_sel (by decide) (by decide),
    acceptedWithKey_of_decode (i := .whitenIn) rfl rfl, acceptedWithKey_of_decode (i := .whitenOut) rfl rfl,
    droppedWhileBusy _, droppedWhileBusy _,
    fun k => ⟨whiten_zero k .input, whiten_zero k .output, whiten_whiten k⟩, by decide +kernel, by decide +kernel⟩

/-! ### The zero-key example -/

/-- The schedule of the zero key (95_test_vectors.md, section 2.5). -/
def zeroKeySchedule : Schedule where
  skey0 := 0
  skey1 := 0
  ks := #v[
    0x57986F4C, 0xB31E2CAE, 0xE45220FF, 0x68BB08AD, 0x8E048095, 0x2413150A, 0x4D636E3C, 0x011E5E59,
    0xC9EB74FC, 0x32D69FFB, 0x7F0AD6B4, 0x10A74DDD, 0xEC0847F7, 0x94705FBE, 0x1744E084, 0xD7F9A257,
    0x6F2FA019, 0x1D74E9AD, 0x4A5BA055, 0xA4F12F94, 0x48C51F58, 0x8AFB56AF, 0xCBCE1C9C, 0xAD3DEEF8,
    0x89562195, 0xCECBA6A6, 0xF05F56DE, 0x4A1F6FBD, 0xDC862E7D, 0x8DB35045, 0x4BD0924A, 0xE60D0D31,
    0x2F8338A2, 0x7826344C, 0x4538307E, 0x469AB4DC, 0x3D4ABFE5, 0xE4953077, 0xB21E0122, 0xA2CDFF9E]

/-- Each step's two subkeys are made of its two values of G, whose key words are 0 (rules R193, R194). -/
theorem zeroKeySchedule_steps : ∀ i : Fin 20,
    let a := gFunction tables (2 * BitVec.ofNat 32 i * rho) 0 0
    let b := (gFunction tables (2 * BitVec.ofNat 32 i * rho + rho) 0 0).rotateLeft 8
    zeroKeySchedule.subkey ⟨2 * i, by omega⟩ = a + b ∧
      zeroKeySchedule.subkey ⟨2 * i + 1, by omega⟩ = (a + 2 * b).rotateLeft 9 := by decide +kernel

/-- Two schedules are equal when they agree on the S-box words and on the two subkeys of each step (rule R194). -/
theorem Schedule.ext_subkey {k k' : Schedule} (h0 : k.skey0 = k'.skey0) (h1 : k.skey1 = k'.skey1)
    (hsteps : ∀ i : Fin 20, k.subkey ⟨2 * i, by omega⟩ = k'.subkey ⟨2 * i, by omega⟩ ∧
      k.subkey ⟨2 * i + 1, by omega⟩ = k'.subkey ⟨2 * i + 1, by omega⟩) : k = k' := by
  have hks : k.ks = k'.ks := by
    refine Vector.ext fun n hn => ?_
    obtain ⟨i, rfl | rfl⟩ := n.even_or_odd'
    · exact (hsteps ⟨i, by omega⟩).1
    · exact (hsteps ⟨i, by omega⟩).2
  cases k
  cases k'
  cases h0
  cases h1
  cases hks
  rfl

theorem keySchedule_zeroKey : keySchedule tables .zero = zeroKeySchedule := by
  obtain ⟨-, -, -, -, -, -, -, hs0, hs1, -⟩ := keyschedCommand
  refine Schedule.ext_subkey (hs0 0 0) hs1 fun i => ?_
  obtain ⟨heven, hodd⟩ := roundSubkeysOfTheSchedule tables .zero i
  obtain ⟨heven', hodd'⟩ := zeroKeySchedule_steps i
  exact ⟨heven.trans heven'.symm, hodd.trans hodd'.symm⟩

theorem encryptBlock_zeroKey :
    encryptBlock tables (keySchedule tables .zero) .zero = ⟨0x4C229D4C, 0xEB2D0EBB, 0xA46644E1, 0x4D55BF2A⟩ := by
  rw [keySchedule_zeroKey]
  decide +kernel

theorem decryptBlock_zeroKey :
    decryptBlock tables (keySchedule tables .zero) .zero = ⟨0x8EE078CD, 0x7FC837F0, 0xFFB4847A, 0x8834823F⟩ := by
  rw [keySchedule_zeroKey]
  decide +kernel

/-! ### The two block commands -/

/-- Settles O54: the completion commits the encryption of DIN, and its word is an opcode that needs the key; DIN stays,
so a second run commits the same block. -/
theorem encryptCommand : Obligations.EncryptCommand :=
  ⟨rfl, rfl, fun _ => rfl, reservedFieldError_of_plain (by decide) (by decide) (by decide),
    acceptedWithKey_of_decode (i := .encrypt) rfl rfl, droppedWhileBusy _,
    fun _ => ⟨_, _, _, rfl, rfl, rfl, rfl, rfl, rfl⟩, encryptBlock_zeroKey⟩

/-- Settles O55: the completion commits the decryption of DIN, and its word is an opcode that needs the key; the zero
block is the decryption of its encryption. -/
theorem decryptCommand : Obligations.DecryptCommand := by
  refine ⟨rfl, rfl, fun _ => rfl, reservedFieldError_of_plain (by decide) (by decide) (by decide),
    acceptedWithKey_of_decode (i := .decrypt) rfl rfl, droppedWhileBusy _, decryptBlock_encryptBlock tables,
    decryptBlock_zeroKey, ?_⟩
  rw [← encryptBlock_zeroKey, decryptBlock_encryptBlock]

end Sys2Proof.Machine
end

section
/-!
SUPPORT. Dropped writes and rejected commands (rules R252, R253, R256).
-/

namespace Sys2Proof.Machine

/-- The RW data registers lie in two ranges of the map: KEY and DIN, and the operands (rule R21). -/
theorem Reg.offset_of_isRW {r : Reg} (h : r.isRW = true) :
    0x010 ≤ r.offset ∧ r.offset ≤ 0x02C ∨ 0x040 ≤ r.offset ∧ r.offset ≤ 0x048 := by
  cases r with
  | key | din | opa | opb | opc => simp only [offset]; omega
  | _ => cases h

/-- Settles O15: the offsets named lie outside the ranges of the writable registers. -/
theorem readOnlyWritesAreBadAccess : Obligations.ReadOnlyWritesAreBadAccess := by
  intro s off v hidle _ hoff
  refine memWrite_of_not_isRW (by omega) (by omega) (fun r hr => ?_) hidle v
  rw [← Bool.not_eq_true]
  intro hrw
  have hrange := Reg.offset_of_isRW hrw
  omega

/-- Rule R252: the record is in STATUS and ERRINFO. -/
theorem readReg_raise {r : Reg} (hstatus : r ≠ .status) (hinfo : r ≠ .errInfo) (e : ErrCode) (info : Word)
    (s : State) : readReg (raise e info s) r = readReg s r := by
  cases r with
  | status => exact absurd rfl hstatus
  | errInfo => exact absurd rfl hinfo
  | _ => rfl

/-- What drops a write to an offset other than that of STATUS: BUSY, a failed check, or a register that is not RW
(rules R64, R100). -/
theorem exists_memWrite_eq_raise {s : State} {off : Nat} {v : Word} (h8 : off ≠ 0x008)
    (h : s.status.busy = true ∨ off = 0x004 ∧ check v s.status.keyValid ≠ none ∨
      off ≠ 0x004 ∧ ∀ r : Reg, r.offset = off → r.isRW = false) :
    ∃ e info, memWrite off v s = raise e info s := by
  cases hbusy : s.status.busy with
  | true => exact ⟨_, _, memWrite_of_busy h8 hbusy v⟩
  | false =>
    obtain hb | ⟨rfl, hc⟩ | ⟨h4, hr⟩ := h
    · exact absurd hb (by simp [hbusy])
    · obtain ⟨e, he⟩ := Option.ne_none_iff_exists'.mp hc
      exact ⟨e, v, (memWrite_cmd hbusy v).trans (present_of_check_some he)⟩
    · exact ⟨_, _, memWrite_of_not_isRW h8 h4 hr hbusy v⟩

/-- Settles O17: each such write records an error and does no more, and completion commutes with recording. -/
theorem errorsArePrecise : Obligations.ErrorsArePrecise := by
  refine ⟨fun s off v h8 h => ?_, fun s e info i => ?_⟩
  · obtain ⟨e, info, heq⟩ := exists_memWrite_eq_raise h8 h
    rw [heq]
    exact ⟨⟨e, info, rfl⟩, fun r hstatus hinfo => readReg_raise hstatus hinfo e info s, by simp⟩
  · obtain ⟨t, ht, -⟩ := exec_status i s
    exact ⟨t, ht, exec_raise ht e info⟩

/-- Settles O16: the two cases of recording, ERR = 0 and ERR = 1. -/
theorem firstErrorIsRecorded : Obligations.FirstErrorIsRecorded :=
  ⟨rfl, rfl, rfl, rfl, rfl, fun e info s => ⟨raise_first e info s, raise_later e info s⟩⟩

end Sys2Proof.Machine
end

section
/-!
SUPPORT. A safe state has a next state (rules R250, R255): no admitted event is refused.
-/

namespace Sys2Proof.Machine

theorem EngineInv.exists_runEvent {s : State} {e : Event} (h : EngineInv s) (he : e.Admitted) :
    ∃ t, runEvent e s = .next t ∧ t.events = s.events := by
  cases e with
  | hostRead addr width =>
    obtain ⟨off, rfl, hin, hform⟩ := he
    exact ⟨_, (busRead_base off width s).trans (readAt_next.mpr ⟨hin, hform, rfl⟩), rfl⟩
  | hostWrite addr width v =>
    obtain ⟨off, rfl, hin, hform⟩ := he
    exact ⟨_, (busWrite_base off width v s).trans (writeAt_next.mpr ⟨hin, hform, rfl⟩), memWrite_events off v s⟩
  | engine =>
    obtain ⟨t, ht⟩ : ∃ t, engineTurn s = .next t := by
      cases hp : s.pend with
      | none => exact ⟨s, engineTurn_of_idle hp⟩
      | some c =>
        obtain ⟨t, ht, -⟩ := h.exists_engineTurn hp
        exact ⟨t, ht⟩
    exact ⟨t, ht, (engineTurn_effect ht).events_eq⟩
  | reset => exact ⟨applyReset s, rfl, rfl⟩

/-- A step of a safe state takes at most one event off the list (rule R70). -/
theorem Safe.exists_step {s : State} (h : Safe s) : ∃ t, step s = .next t ∧ t.events = s.events.tail := by
  obtain ⟨hinv, hadm⟩ := h
  cases hevents : s.events with
  | nil =>
    obtain ⟨t, ht, heq⟩ := hinv.exists_runEvent (e := .engine) trivial
    exact ⟨t, (step_of_events_nil hevents).trans ht, heq.trans hevents⟩
  | cons e es =>
    have hinv : EngineInv { s with events := es } := { hinv with }
    obtain ⟨t, ht, heq⟩ := hinv.exists_runEvent (hadm e (by simp [hevents]))
    exact ⟨t, (step_of_events_cons hevents).trans ht, heq⟩

/-- Settles O26: the step exists, keeps the invariant, and leaves only events that were to come. -/
theorem safeRunsNeverStop : Obligations.SafeRunsNeverStop := by
  intro s h
  obtain ⟨t, hstep, hevents⟩ := h.exists_step
  obtain ⟨hinv, hadm⟩ := h
  exact ⟨t, hstep, stepKeepsTheInvariant s t hinv hstep, fun e he => hadm e (List.mem_of_mem_tail (hevents ▸ he))⟩

end Sys2Proof.Machine
end

section
/-!
SUPPORT. The reset event (rules R280, R281).
-/

namespace Sys2Proof.Machine

theorem Quad.get_zero (i : Fin 4) : Quad.zero.get i = 0 := by
  fin_cases i <;> rfl

theorem readReg_applyReset {r : Reg} (h : r ≠ .id) (s : State) : readReg (applyReset s) r = 0 := by
  cases r with
  | id => exact absurd rfl h
  | status => exact (by decide : Status.reset.toWord = 0)
  | key i | din i | dout i => exact Quad.get_zero i
  | ks i => exact Schedule.subkey_reset i
  | _ => rfl

theorem memRead_applyReset {off : Nat} (h : off ≠ 0x000) (s : State) : memRead off (applyReset s) = 0 := by
  by_cases hoff : ∃ r : Reg, r.offset = off
  · obtain ⟨r, rfl⟩ := hoff
    rw [memRead_offset]
    refine readReg_applyReset ?_ s
    rintro rfl
    exact h rfl
  · exact memRead_reserved (not_exists.mp hoff) _

theorem memRead_id (s : State) : memRead 0x000 s = idValue := memRead_offset .id s

theorem step_reset {s : State} {es : List Event} (h : s.events = .reset :: es) :
    step s = .next (applyReset { s with events := es }) := step_of_events_cons h

/-- Settles O8: the state after power-on is one that reset leaves. -/
theorem resetClearsEveryRegister : Obligations.ResetClearsEveryRegister :=
  ⟨fun _ _ h => ⟨_, step_reset h, rfl, memRead_id _, fun _ hoff => memRead_applyReset hoff _⟩,
    rfl, memRead_id _, fun _ hoff => memRead_applyReset hoff .reset⟩

/-- Settles O9: reset sets the results with every other register, and with PEND none the engine is idle. -/
theorem resetAbandonsThePendingCommand : Obligations.ResetAbandonsThePendingCommand := fun _ _ _ h _ =>
  ⟨_, step_reset h, rfl, rfl, rfl, rfl, rfl, rfl, rfl, rfl, engineTurn_of_idle rfl⟩

end Sys2Proof.Machine
end
